-- ==== Sys2Proof/Word.lean ====
section
/-! DEFINITION. The two word sizes of frame_codec (00_scope.md R7, R9). -/

namespace Sys2Proof

/-- A byte: 8 bits, unsigned (R10). -/
abbrev Byte := BitVec 8

/-- A time or duration in ticks: `TIME_W` = 16 bits, unsigned (R9). -/
abbrev Tick := BitVec 16

end Sys2Proof
end

