-- ==== Sys2Proof/Config.lean ====
section
/-! DEFINITION. What is fixed when an instance is built, and the values the spec leaves free.

An opaque constant has no body, so nothing can be proved of its value (assumption log 3, 4, 5, 12). -/

namespace Sys2Proof

/-- `N`: slots per register store (R7). -/
abbrev numSlots : Nat := 40

/-- `PBUF_DEPTH`: bytes of the payload buffer (R9, R30). -/
abbrev pbufDepth : Nat := 80

/-- `CKS_ALG`: the two checksum algorithms (R8). -/
inductive CksAlg where
  | sum2c
  | crc8
  deriving DecidableEq, Repr, Inhabited

/-- The side of the link an instance stands on; the sides differ only in `TIMEOUT_RESET` (R9, R258). -/
inductive Side where
  | peripheral
  | host
  deriving DecidableEq, Repr, Inhabited

/-- The build-time parameters the spec leaves open (R8, R9; U11, U12): no step changes them. -/
structure Build where
  cksAlg : CksAlg
  side : Side
  /-- the candidate for `TIMEOUT_RESET_HOST`; `Build.timeoutReset` keeps it above 10 -/
  timeoutResetHost : Tick
  deriving DecidableEq, Repr, Inhabited

namespace Config

/-- The parameters of the instance `State.reset` describes: open (R8, R9), so opaque. -/
opaque build : Build

/-- What `OUT[slot]` holds after the reset numbered `draw` (R39, U2). -/
opaque freeOutSlot : (draw slot : Nat) → Byte

/-- What `IN[slot]` holds after the reset numbered `draw` (R39, U2). -/
opaque freeInSlot : (draw slot : Nat) → Byte

/-- What `PBUF[i]` holds after the reset numbered `draw` (R39, U3). -/
opaque freeBufByte : (draw i : Nat) → Byte

/-- What `ACC` holds after a reset (R39, U3). -/
opaque freeAcc : (draw : Nat) → Byte

/-- What `T0` holds after a reset (R39, U3). -/
opaque freeT0 : (draw : Nat) → Tick

/-- What `LEN` holds after a reset (R39, U3). -/
opaque freeLen : (draw : Nat) → Byte

/-- What `CNT` holds after a reset (R39, U3). -/
opaque freeCnt : (draw : Nat) → BitVec 7

/-- `resp_status` in a step without a response (R224, U4). -/
opaque freeRespStatus : (draw : Nat) → BitVec 3

/-- `app_rdata` in a step without a read access (R62, U5). -/
opaque freeAppRdata : (draw : Nat) → Byte

/-- `rx_data` while RXQ is empty (R33, U6). -/
opaque freeRxData : (draw : Nat) → Byte

/-- `tx_data` in a step with `tx_valid` = 0 (R34 gives it a meaning only with `tx_valid` = 1). -/
opaque freeTxData : (draw : Nat) → Byte

end Config

end Sys2Proof
end

