-- ==== Sys2Proof/Machine/Params.lean ====
section
/-! DEFINITION. The numeric parameters of the block (00_scope.md R7, R9). -/

namespace Sys2Proof.Machine

/-- `START`, the start sentinel (R7). -/
def startByte : Byte := 0x7E

/-- `END`, the end sentinel (R7). -/
def endByte : Byte := 0xEF

/-- `LEN_MAX`: the largest legal payload byte length (R7). -/
def lenMax : Nat := 80

/-- `CRC_POLY`: the reflected CRC-8 polynomial (R7). -/
def crcPoly : Byte := 0x8C

/-- `CRC_INIT` (R9, R204; D18, assumption log 18). -/
def crcInit : Byte := 0x00

/-- `CRC_XOROUT`: no final XOR (R9, R206; D18, assumption log 18). -/
def crcXorOut : Byte := 0x00

/-- `TIMEOUT_RESET` of the peripheral-side instance (R9, D15). -/
def timeoutResetPeripheral : Tick := 10

/-- `TIMEOUT_RESET` (R9): 10 on the peripheral side; on the host side an open value, "larger" than the
peripheral's: every value above 10 is some build's (U12, assumption log 20). -/
def timeoutReset (b : Build) : Tick :=
  match b.side with
  | .peripheral => timeoutResetPeripheral
  | .host => if timeoutResetPeripheral < b.timeoutResetHost then b.timeoutResetHost else timeoutResetPeripheral + 1

end Sys2Proof.Machine
end

