-- ==== Sys2Proof/Syntax.lean ====
section
/-! DEFINITION. The operations of the block: one constructor per row of spec/opcode_table.json (R104). -/

namespace Sys2Proof

/-- One `(id, value)` pair of a payload (R12, R90). -/
structure Item where
  id : Byte
  value : Byte
  deriving DecidableEq, Repr

/-- The operations. Bits the spec calls ignored are no operands (R99, R100; assumption log 11). -/
inductive Instr where
  /-- DECODE: `cmd_op` = 00, `cmd_arg` ignored (R99, R140). -/
  | decode
  /-- ENCODE `count`: `cmd_op` = 01 (R99, R120). -/
  | encode (count : BitVec 16)
  /-- SET_TIMEOUT `duration`: `cmd_op` = 10 (R99, R226). -/
  | setTimeout (duration : BitVec 16)
  /-- CMD_RESERVED: `cmd_op` = 11 (R99, R223). -/
  | cmdReserved
  /-- OUTW `addr`, `data`: write `OUT[addr]` (R100, R184). -/
  | outw (addr : BitVec 6) (data : Byte)
  /-- OUTR `addr`: read `OUT[addr]` (R100, R185). -/
  | outr (addr : BitVec 6)
  /-- INR `addr`: read `IN[addr]` (R100, R186). -/
  | inr (addr : BitVec 6)
  /-- STORE_RESERVED: a write aimed at `IN` (R100, R65). -/
  | storeReserved
  /-- FRAME: one wire frame, its pairs and its checksum byte; LEN is twice the number of pairs (R90). -/
  | frame (items : List Item) (checksum : Byte)
  deriving DecidableEq, Repr

/-- OUTW is the one access that changes a slot (R62): in a cycle it comes after every read (R71). -/
def Instr.writesSlot : Instr → Bool
  | .outw _ _ => true
  | .decode => false
  | .encode _ => false
  | .setTimeout _ => false
  | .cmdReserved => false
  | .outr _ => false
  | .inr _ => false
  | .storeReserved => false
  | .frame _ _ => false

end Sys2Proof
end

