-- ==== Sys2Proof/WellFormed.lean ====
section
/-! DEFINITION. Which terms of `Instr` have an encoding.

Every operand of a command or store word has its field's width in its type, so all its values are legal
encodings (an index of 40..63 is a legal word that the port rejects, R66). A frame holds at most N pairs (R92). -/

namespace Sys2Proof

/-- `LEN` = 2 x pairs is at most 80 (R92). -/
def Instr.wellFormed : Instr → Bool
  | .decode => true
  | .encode _ => true
  | .setTimeout _ => true
  | .cmdReserved => true
  | .outw _ _ => true
  | .outr _ => true
  | .inr _ => true
  | .storeReserved => true
  | .frame items _ => decide (items.length ≤ numSlots)

end Sys2Proof
end

