-- ==== Sys2Proof/Decode.lean ====
section
/-! DEFINITION. The three encodings of 30_encoding.md, read (decode) and written (encode).

The same bits mean different operations on different ports, so what is decoded is a word ON a port
(assumption log 10). -/

namespace Sys2Proof

open Sys2Proof.Machine (startByte endByte lenMax)

/-- What stands on one of the three ports: a command word (R99), a store word (R100), wire bytes (R90). -/
inductive PortWord where
  | command (w : BitVec 18)
  | store (w : BitVec 16)
  | wire (bytes : List Byte)
  deriving DecidableEq, Repr

/-- Why wire bytes are not one well-formed frame (R90, R92). Command and store words always decode. -/
inductive DecodeError where
  | frameTooShort
  | noStartSentinel
  | lengthOdd
  | lengthTooLarge
  | noEndSentinel
  | bytesAfterFrame
  deriving DecidableEq, Repr

/-! ### Decoding -/

/-- Bits 17:16 are `cmd_op`, bits 15:0 `cmd_arg` (R99). -/
def decodeCommand (w : BitVec 18) : Instr :=
  if w.extractLsb' 16 2 = 0b00#2 then .decode
  else if w.extractLsb' 16 2 = 0b01#2 then .encode (w.extractLsb' 0 16)
  else if w.extractLsb' 16 2 = 0b10#2 then .setTimeout (w.extractLsb' 0 16)
  else .cmdReserved

/-- Bit 15 is `app_sel`, bit 14 `app_we`, bits 13:8 `app_addr`, bits 7:0 `app_wdata` (R100). -/
def decodeStore (w : BitVec 16) : Instr :=
  if w.extractLsb' 14 2 = 0b01#2 then .outw (w.extractLsb' 8 6) (w.extractLsb' 0 8)
  else if w.extractLsb' 14 2 = 0b00#2 then .outr (w.extractLsb' 8 6)
  else if w.extractLsb' 14 2 = 0b10#2 then .inr (w.extractLsb' 8 6)
  else .storeReserved

/-- The test of a length byte: even and at most 80 (R92, R145). -/
def legalLength (b : Byte) : Bool :=
  !b.getLsbD 0 && decide (b.toNat ≤ lenMax)

/-- Read `n` pairs, id first (R90); the rest of the bytes comes back. -/
def takeItems : Nat → List Byte → Option (List Item × List Byte)
  | 0, bytes => some ([], bytes)
  | n + 1, id :: value :: bytes =>
    match takeItems n bytes with
    | some (items, rest) => some (⟨id, value⟩ :: items, rest)
    | none => none
  | _ + 1, _ => none

/-- Read one frame from the head of a byte sequence (R90 to R92); the bytes after it come back. -/
def decodeFrame : List Byte → Except DecodeError (Instr × List Byte)
  | start :: l :: body =>
    if start ≠ startByte then .error .noStartSentinel
    else if l.getLsbD 0 then .error .lengthOdd
    else if !legalLength l then .error .lengthTooLarge
    else
      match takeItems (l.toNat / 2) body with
      | some (items, checksum :: last :: rest) =>
        if last ≠ endByte then .error .noEndSentinel else .ok (.frame items checksum, rest)
      | _ => .error .frameTooShort
  | _ => .error .frameTooShort

/-- The decoder: total, and a refusal names its reason. -/
def decode : PortWord → Except DecodeError Instr
  | .command w => .ok (decodeCommand w)
  | .store w => .ok (decodeStore w)
  | .wire bytes =>
    match decodeFrame bytes with
    | .ok (i, []) => .ok i
    | .ok (_, _ :: _) => .error .bytesAfterFrame
    | .error e => .error e

/-! ### Encoding -/

/-- The command word with `cmd_op` = `op` (R99). -/
def commandWord (op : BitVec 2) (arg : BitVec 16) : BitVec 18 := op ++ arg

/-- The store word `app_sel, app_we, app_addr, app_wdata`, most significant first (R100). -/
def storeWord (sel we : Bool) (addr : BitVec 6) (wdata : Byte) : BitVec 16 :=
  BitVec.ofBool sel ++ BitVec.ofBool we ++ addr ++ wdata

/-- The payload bytes of a list of pairs: id 0, value 0, id 1, value 1 and so on (R61, R90). -/
def payloadBytes : List Item → List Byte
  | [] => []
  | item :: items => item.id :: item.value :: payloadBytes items

/-- START, LEN, payload, checksum, END (R90). -/
def frameBytes (items : List Item) (checksum : Byte) : List Byte :=
  startByte :: BitVec.ofNat 8 (2 * items.length) :: (payloadBytes items ++ [checksum, endByte])

/-- The word of an operation on its port. Ignored bits are written 0 (assumption log 11). -/
def encode : Instr → PortWord
  | .decode => .command (commandWord 0b00#2 0)
  | .encode count => .command (commandWord 0b01#2 count)
  | .setTimeout duration => .command (commandWord 0b10#2 duration)
  | .cmdReserved => .command (commandWord 0b11#2 0)
  | .outw addr data => .store (storeWord false true addr data)
  | .outr addr => .store (storeWord false false addr 0)
  | .inr addr => .store (storeWord true false addr 0)
  | .storeReserved => .store (storeWord true true 0 0)
  | .frame items checksum => .wire (frameBytes items checksum)

/-! ### Words as the opcode table numbers them -/

/-- The lowest `n` bytes of a number, least significant first: wire byte 0 is bits 7..0. -/
def bytesOfNat : Nat → Nat → List Byte
  | 0, _ => []
  | n + 1, w => BitVec.ofNat 8 w :: bytesOfNat n (w / 256)

/-- The longest frame: LEN = 80 (R91). -/
def maxFrameBytes : Nat := 84

/-- A table row's word as it stands on its port: rows of 16 bits are store words, rows of 18 bits (3 whole bytes)
command words, longer ones wire bytes, the first byte lowest; bits outside the row must be 0. -/
def portWordOfTable (nbits w : Nat) : Option PortWord :=
  if nbits ≤ 16 then
    if w < 2 ^ 16 then some (.store (BitVec.ofNat 16 w)) else none
  else if nbits ≤ 24 then
    if w < 2 ^ 18 then some (.command (BitVec.ofNat 18 w)) else none
  else if w < 2 ^ nbits then
    match decodeFrame (bytesOfNat maxFrameBytes w) with
    | .ok (_, rest) =>
      if rest.all (· == 0) then some (.wire ((bytesOfNat maxFrameBytes w).take (maxFrameBytes - rest.length))) else none
    | .error _ => none
  else none

/-- The instruction the decoder reads from a table row's word (the host's numbering of bits). -/
def decodeTableWord (nbits w : Nat) : Option Instr :=
  match portWordOfTable nbits w with
  | none => none
  | some p =>
    match decode p with
    | .ok i => some i
    | .error _ => none

end Sys2Proof
end

