-- ==== Sys2Proof/Machine/Checksum.lean ====
section
/-! DEFINITION. The checksum engine: CKS_INIT, CKS_UPDATE and CKS_FINAL of SUM2C and CRC8 (43_checksum.md). -/

namespace Sys2Proof.Machine

/-- CKS_INIT (R201, R204). -/
def cksInit : CksAlg → Byte
  | .sum2c => 0x00
  | .crc8 => crcInit

/-- One reflected shift: bit 0 is tested before the right shift (R205). -/
def crcShift (c : Byte) : Byte :=
  if c.getLsbD 0 then (c >>> 1) ^^^ crcPoly else c >>> 1

/-- `n` reflected shifts (R205). -/
def crcShifts : Nat → Byte → Byte
  | 0, c => c
  | n + 1, c => crcShifts n (crcShift c)

/-- CKS_UPDATE: addition modulo 256 (R202), or the eight shifts of `acc XOR b` (R205). -/
def cksUpdate : CksAlg → Byte → Byte → Byte
  | .sum2c, acc, b => acc + b
  | .crc8, acc, b => crcShifts 8 (acc ^^^ b)

/-- CKS_FINAL: the two's complement (R203), or the accumulator itself (R206). -/
def cksFinal : CksAlg → Byte → Byte
  | .sum2c, acc => 0 - acc
  | .crc8, acc => acc ^^^ crcXorOut

/-- `ACC` after the bytes `p`, in order, from `cks_init()` (R207). -/
def cksAcc (alg : CksAlg) (p : List Byte) : Byte :=
  p.foldl (cksUpdate alg) (cksInit alg)

/-- The checksum of a byte sequence (R207). -/
def checksum (alg : CksAlg) (p : List Byte) : Byte :=
  cksFinal alg (cksAcc alg p)

end Sys2Proof.Machine
end

