-- ==== Sys2Proof/Machine/State.lean ====
section
/-! DEFINITION. The state of one instance of the block and of the agents around it, as plain data. -/

namespace Sys2Proof.Machine

/-- `PHASE`: the sequencer's control state, 14 values (R26). -/
inductive Phase where
  | idle
  | eBuild
  | eStart
  | eLen
  | ePay
  | eCks
  | eEnd
  | dSync
  | dLen
  | dBody
  | dRead
  | dCks
  | dEnd
  | dApply
  deriving DecidableEq, Repr

/-- The eight status codes (R240). -/
inductive Status where
  | ok
  | noData
  | serialBuffError
  | payloadError
  | timeoutError
  | checksumError
  | endByteError
  | encodeLengthError
  deriving DecidableEq, Repr

/-- Why the machine stops. The block itself has no trap (60_exceptions.md); both faults mark an internal index
that names no cell, which no run from reset produces (assumption log 14). -/
inductive Fault where
  /-- Raised by the `E_BUILD` step when `CNT` names no slot of `OUT` (R21 gives `OUT[0..39]` only). Safe. -/
  | noSuchSlot
  /-- Raised by the `E_PAY`, `D_READ` and `D_APPLY` steps when an index names no byte of `PBUF`
  (R30 gives `PBUF[0..79]` only). Safe. -/
  | noSuchBufferByte
  deriving DecidableEq, Repr

/-- Why a step has no meaning. -/
inductive Refusal where
  /-- Raised by an arm of `exec` whose instruction has no meaning yet. Safe. -/
  | notModelled (mnemonic : String)
  /-- Raised by `D_READ`, `D_CKS` and `D_END` when they pop an empty RXQ: "not defined by this spec"
  (R147, U9: refuse). No run from reset does so (assumption log 13). Safe. -/
  | rxPopOnEmpty
  deriving DecidableEq, Repr

/-- The input lines during one cycle: what every agent but the sequencer does in it (R11, R32). -/
structure Inputs where
  /-- `rst` (R270) -/
  rst : Bool
  /-- `cmd_valid`, `cmd_op`, `cmd_arg` (R221) -/
  cmdValid : Bool
  cmdOp : BitVec 2
  cmdArg : BitVec 16
  /-- `app_en`, `app_sel`, `app_we`, `app_addr`, `app_wdata` (R62) -/
  appEn : Bool
  appSel : Bool
  appWe : Bool
  appAddr : BitVec 6
  appWdata : Byte
  /-- the bytes the receive stream appends to RXQ in this cycle, in arrival order (R33) -/
  rxBytes : List Byte
  /-- `tx_ready` (R34) -/
  txReady : Bool
  /-- `now` advances by one tick in this cycle (R35) -/
  tick : Bool
  /-- the sequencer makes its step in this cycle: a sequencer step takes an unspecified number of
  cycles (R274; assumption log 16) -/
  seqRun : Bool
  deriving DecidableEq, Repr

/-- Nothing happens outside the block, the stream takes every byte and the sequencer moves. -/
def Inputs.quiet : Inputs :=
  { rst := false, cmdValid := false, cmdOp := 0, cmdArg := 0,
    appEn := false, appSel := false, appWe := false, appAddr := 0, appWdata := 0,
    rxBytes := [], txReady := true, tick := false, seqRun := true }

/-- The machine's state. -/
structure State where
  /-- `OUT`, the outgoing register store (R21) -/
  outStore : Vector Byte numSlots
  /-- `IN`, the incoming register store (R22) -/
  inStore : Vector Byte numSlots
  /-- `TIMEOUT` (R23) -/
  timeout : Tick
  /-- `LASTCKS` (R24) -/
  lastCks : Byte
  /-- `ACC` (R25) -/
  acc : Byte
  /-- `PHASE` (R26) -/
  phase : Phase
  /-- `T0` (R27) -/
  t0 : Tick
  /-- `LEN` (R28) -/
  len : Byte
  /-- `CNT` (R29) -/
  cnt : BitVec 7
  /-- `PBUF` (R30) -/
  pbuf : Vector Byte pbufDepth
  /-- RXQ, the receive stream's queue, head first (R33) -/
  rxq : List Byte
  /-- TXQ, every byte transmitted, first one first (R34) -/
  txq : List Byte
  /-- `now`, the time base (R35) -/
  now : Tick
  /-- the response of the latest step: `resp_valid` is its presence, `resp_status` its value (R224) -/
  resp : Option Status
  /-- `app_err` in the latest step (R66) -/
  appErr : Bool
  /-- `app_rdata` in the latest step, if it held a read access (R64; assumption log 12) -/
  appRdata : Option Byte
  /-- `rx_pop` in the latest step (R33) -/
  rxPop : Bool
  /-- the byte presented in the latest step: `tx_valid` is its presence, `tx_data` its value (R34) -/
  tx : Option Byte
  /-- the stream accepted the presented byte in the latest step (R34) -/
  txTaken : Bool
  /-- the input lines of the coming cycles, the next one first (assumption log 1) -/
  script : List Inputs
  /-- the input lines of every cycle after the script, for ever (assumption log 2) -/
  rest : Inputs
  /-- the build-time parameters (assumption log 3) -/
  build : Build
  /-- how many steps were taken: the argument of the free values (assumption log 4, 5, 12) -/
  draws : Nat
  deriving DecidableEq, Repr

/-- `n` bytes given by index, as a fixed array. -/
def bytesFrom (n : Nat) (f : Nat → Byte) : Vector Byte n :=
  ⟨⟨(List.range n).map f⟩, by simp⟩

/-- The machine right after reset (R39, R270). What R39 leaves unspecified is a free value; RXQ, TXQ, `now`,
the script and the lines after it are the environment's and start empty, at 0 or quiet (assumption log 4, 5, 6). -/
def State.reset : State :=
  { outStore := bytesFrom numSlots (Config.freeOutSlot 0)
    inStore := bytesFrom numSlots (Config.freeInSlot 0)
    timeout := timeoutReset Config.build
    lastCks := 0x00
    acc := Config.freeAcc 0
    phase := .idle
    t0 := Config.freeT0 0
    len := Config.freeLen 0
    cnt := Config.freeCnt 0
    pbuf := bytesFrom pbufDepth (Config.freeBufByte 0)
    rxq := []
    txq := []
    now := 0
    resp := none
    appErr := false
    appRdata := none
    rxPop := false
    tx := none
    txTaken := false
    script := []
    rest := Inputs.quiet
    build := Config.build
    draws := 0 }

end Sys2Proof.Machine
end

