-- ==== Sys2Proof/Machine/Ops.lean ====
section
/-! DEFINITION. The named operations every meaning is written with: the streams, the clock, the stores, the payload
buffer, `raise`, acceptance, reset, and the beginning of a cycle. -/

namespace Sys2Proof.Machine

/-- What a meaning answers. -/
abbrev Result := Host.Outcome State Fault Refusal

/-- Run `k` on the next state; a stop stays a stop. -/
def andThen (r : Result) (k : State → Result) : Result :=
  match r with
  | .next s => k s
  | .fault f => .fault f
  | .refused x => .refused x

namespace State

/-! ### Responses: the one way a command ends -/

/-- `raise S` (R10, R224, R252): the response, and `PHASE <- IDLE`. This is the block's whole exception entry: nothing
is saved and no mode changes; there is no return from it (R253). DESIGN CHOICE: `ACC`, `T0`, `LEN`, `CNT` and `PBUF`,
unspecified between commands (R25, R30, U3), keep what the operation left in them (assumption log 24). -/
def raise (status : Status) (s : State) : State :=
  { s with resp := some status, phase := .idle }

/-- Acceptance (R221): a command presented while the block is busy is not accepted, and nothing happens. -/
def accept (s : State) (run : State → Result) : Result :=
  if s.phase = .idle then run s else .next s

/-! ### The receive stream -/

/-- `RxAvail()` = min(len(RXQ), 255) (R33). -/
def rxAvail (s : State) : Byte :=
  BitVec.ofNat 8 (min s.rxq.length 255)

/-- The head byte of RXQ is removed, with `rx_pop` = 1 (R33). -/
def dropHead (s : State) : State :=
  { s with rxq := s.rxq.tail, rxPop := true }

/-- `RxPop()` gives its byte and the state after it to `run`; with an empty RXQ it is not defined (R33, R147, U9). -/
def popRx (s : State) (run : Byte → State → Result) : Result :=
  match s.rxq with
  | [] => .refused .rxPopOnEmpty
  | b :: _ => run b s.dropHead

/-- The receive stream appends bytes at the tail of RXQ (R33). -/
def deliver (bytes : List Byte) (s : State) : State :=
  { s with rxq := s.rxq ++ bytes }

/-! ### The transmit stream -/

/-- `b` is presented: `tx_valid` = 1, `tx_data` = b (R34). -/
def offerTx (b : Byte) (s : State) : State :=
  { s with tx := some b }

/-- `b` is presented and accepted: it enters TXQ (R34). -/
def sendTx (b : Byte) (s : State) : State :=
  { s with tx := some b, txTaken := true, txq := s.txq ++ [b] }

/-- `TxPush(b)` (R34): the byte is presented; when the stream takes it, it enters TXQ and `after` happens in the same
step; otherwise nothing else changes. -/
def pushTx (s : State) (b : Byte) (ready : Bool) (after : State → State) : Result :=
  if ready then .next (after (s.sendTx b)) else .next (s.offerTx b)

/-- A byte was presented in the latest step and not accepted: it must stay presented (R34). -/
def txStalled (s : State) : Bool :=
  s.tx.isSome && !s.txTaken

/-! ### The time base -/

/-- `Elapsed() = (Now() - T0) mod 2^16` (R10, R155). -/
def elapsed (s : State) : Tick :=
  s.now - s.t0

/-- `Elapsed() > TIMEOUT`, strictly (R155). -/
def timedOut (s : State) : Bool :=
  decide (s.timeout < s.elapsed)

/-- `T0 <- Now()` (R27). -/
def armTimer (s : State) : State :=
  { s with t0 := s.now }

/-! ### The stores and the payload buffer -/

/-- `OUT[i]`, if there is such a slot (R21). -/
def readOut (s : State) (i : Nat) : Option Byte :=
  s.outStore[i]?

/-- `IN[i]`, if there is such a slot (R22). -/
def readIn (s : State) (i : Nat) : Option Byte :=
  s.inStore[i]?

/-- `OUT[i] <- v`; an index that names no slot writes nothing (R63). -/
def writeOut (i : Nat) (v : Byte) (s : State) : State :=
  { s with outStore := s.outStore.setIfInBounds i v }

/-- `IN[i] <- v`; an index that names no slot writes nothing (R180, R183). -/
def writeIn (i : Nat) (v : Byte) (s : State) : State :=
  { s with inStore := s.inStore.setIfInBounds i v }

/-- `PBUF[i] <- b` (R30). -/
def writeBuf (i : Nat) (b : Byte) (s : State) : State :=
  { s with pbuf := s.pbuf.setIfInBounds i b }

/-- Pair `k` into `PBUF`: id at 2k, value at 2k+1 (R122). -/
def writeItem (k : Nat) (item : Item) (s : State) : State :=
  (s.writeBuf (2 * k) item.id).writeBuf (2 * k + 1) item.value

/-- `PBUF[0 .. n-1]` (R30). -/
def buffered (s : State) (n : Nat) : List Byte :=
  s.pbuf.toList.take n

/-- `LEN <- b` (R28). -/
def latchLength (b : Byte) (s : State) : State :=
  { s with len := b }

/-- `TIMEOUT <- d` (R226). -/
def writeTimeout (d : Tick) (s : State) : State :=
  { s with timeout := d }

/-! ### The checksum engine's registers -/

/-- `ACC <- cks_init()` (R25). -/
def startCks (s : State) : State :=
  { s with acc := cksInit s.build.cksAlg }

/-- `ACC <- cks_update(ACC, b)` (R200). -/
def updateCks (b : Byte) (s : State) : State :=
  { s with acc := cksUpdate s.build.cksAlg s.acc b }

/-- `LASTCKS <- cks_final(ACC)` (R123, R149). -/
def finishCks (s : State) : State :=
  { s with lastCks := cksFinal s.build.cksAlg s.acc }

/-! ### Reset and the beginning of a cycle -/

/-- The block after a reset step (R39, R270, R271). RXQ, TXQ and `now` are not the block's and stay (log 7). -/
def resetBlock (s : State) : State :=
  { s with
    outStore := bytesFrom numSlots (Config.freeOutSlot s.draws)
    inStore := bytesFrom numSlots (Config.freeInSlot s.draws)
    timeout := timeoutReset s.build
    lastCks := 0x00
    acc := Config.freeAcc s.draws
    phase := .idle
    t0 := Config.freeT0 s.draws
    len := Config.freeLen s.draws
    cnt := Config.freeCnt s.draws
    pbuf := bytesFrom pbufDepth (Config.freeBufByte s.draws)
    resp := none
    appErr := false
    appRdata := none
    rxPop := false
    tx := none
    txTaken := false }

/-- A cycle begins: the outputs of the step before are gone (R66, R224), its input lines leave the script, the time
base moves if it ticks (R35), and the counter of the free values advances. -/
def beginCycle (i : Inputs) (s : State) : State :=
  { s with
    now := if i.tick then s.now + 1 else s.now
    resp := none
    appErr := false
    appRdata := none
    rxPop := false
    tx := none
    txTaken := false
    script := s.script.tail
    draws := s.draws + 1 }

end State

/-- The command word on the command port (R99). -/
def Inputs.commandWord (i : Inputs) : BitVec 18 :=
  Sys2Proof.commandWord i.cmdOp i.cmdArg

/-- The store word on the store port (R100). -/
def Inputs.storeWord (i : Inputs) : BitVec 16 :=
  Sys2Proof.storeWord i.appSel i.appWe i.appAddr i.appWdata

/-- The input lines of the next cycle: the script's next ones, and after its end `rest` in every cycle (assumption log 2). -/
def State.lines (s : State) : Inputs :=
  s.script.headD s.rest

end Sys2Proof.Machine
end

