-- ==== Sys2Proof/Machine/Command.lean ====
section
/-! DEFINITION. SET_TIMEOUT and the reserved command code (44_command_port.md). -/

namespace Sys2Proof.Machine

/-- SET_TIMEOUT: `TIMEOUT <- cmd_arg`, response OK, all in the accepting step (R226). -/
def execSetTimeout (duration : BitVec 16) (s : State) : Result :=
  s.accept fun s => .next ((s.writeTimeout duration).raise .ok)

/-- CMD_RESERVED: accepted, no state change, no response (R223, U7; assumption log 8). -/
def execCmdReserved (s : State) : Result :=
  s.accept fun s => .next s

end Sys2Proof.Machine
end

