-- ==== Sys2Proof/Machine/Operands.lean ====
section
/-! DEFINITION. The operand forms: an item count, a store-port index, a pair's id, and the counters `LEN` and `CNT`
as numbers. -/

namespace Sys2Proof.Machine

/-- ENCODE's count is in range: at most N, all 16 bits compared (R121). -/
def countFits (count : BitVec 16) : Bool :=
  decide (count.toNat ≤ numSlots)

/-- `LEN <- 2 * count` for a count in range (R121, R212): 8 bits. -/
def lengthOfCount (count : BitVec 16) : Byte :=
  (count <<< 1).setWidth 8

/-- A store-port index names a slot: 0..39 of 0..63 (R63, R64, R66). -/
def slotExists (addr : BitVec 6) : Bool :=
  decide (addr.toNat < numSlots)

/-- A pair's id is in range: the whole byte compared, unsigned (R180, R183). -/
def idInRange (id : Byte) : Bool :=
  decide (id.toNat < numSlots)

/-- `zext_8(CNT)`: the id of a pair ENCODE builds is its position (R93, R122). -/
def positionId (cnt : BitVec 7) : Byte :=
  cnt.setWidth 8

/-- The number of pairs in a payload of `LEN` bytes: `LEN / 2` (R92). -/
def State.itemCount (s : State) : Nat :=
  s.len.toNat / 2

/-- `CNT` as a number. -/
def State.index (s : State) : Nat :=
  s.cnt.toNat

/-- `CNT <- CNT + 1`, 7 bits (R212). -/
def State.countUp (s : State) : State :=
  { s with cnt := s.cnt + 1 }

/-- `CNT <- 0`. -/
def State.countReset (s : State) : State :=
  { s with cnt := 0 }

/-- `PHASE <- p` (R10). -/
def State.enter (p : Phase) (s : State) : State :=
  { s with phase := p }

/-- `RxAvail() >= LEN + 2`: 8 bits, unsigned (R146, R212). -/
def State.bodyArrived (s : State) : Bool :=
  decide (s.len + 2 ≤ s.rxAvail)

end Sys2Proof.Machine
end

