-- ==== Sys2Proof/Machine/Deframer.lean ====
section
/-! DEFINITION. DECODE: the accepting step and the seven `D_` phases (41_decode.md), with APPLY (42_register_store.md). -/

namespace Sys2Proof.Machine

/-- The accepting step of DECODE (R141). -/
def execDecode (s : State) : Result :=
  s.accept fun s =>
    if s.rxAvail = 0 then .next (s.raise .noData) else .next (s.armTimer.enter .dSync)

/-- `D_SYNC`: the tests in the order empty, sentinel, timeout (R142). -/
def stepSync (s : State) : Result :=
  if s.rxAvail = 0 then .next (s.raise .serialBuffError)
  else s.popRx fun b s =>
    if b = startByte then .next (s.armTimer.enter .dLen)
    else if s.timedOut then .next (s.raise .timeoutError)
    else .next s

/-- `D_LEN`: a byte that is there is read before the timeout is looked at (R144, R145). -/
def stepLength (s : State) : Result :=
  if 1 ≤ s.rxAvail then
    s.popRx fun b s =>
      if legalLength b then .next (((s.latchLength b).armTimer).enter .dBody)
      else .next ((s.latchLength b).raise .payloadError)
  else if s.timedOut then .next (s.raise .timeoutError)
  else .next s

/-- `D_BODY`: waits, and pops nothing (R146). -/
def stepBody (s : State) : Result :=
  if s.bodyArrived then .next (s.countReset.startCks.enter .dRead)
  else if s.timedOut then .next (s.raise .timeoutError)
  else .next s

/-- `D_READ`: one payload byte, or the checksum when all are read (R148, R149). -/
def stepRead (s : State) : Result :=
  if s.index < s.len.toNat then
    s.popRx fun b s =>
      if s.index < pbufDepth then .next (((s.writeBuf s.index b).updateCks b).countUp)
      else .fault .noSuchBufferByte
  else .next (s.finishCks.enter .dCks)

/-- `D_CKS`: on a mismatch the end byte is not popped (R150). -/
def stepCompareChecksum (s : State) : Result :=
  s.popRx fun b s => if b = s.lastCks then .next (s.enter .dEnd) else .next (s.raise .checksumError)

/-- `D_END` (R151). -/
def stepCompareEnd (s : State) : Result :=
  s.popRx fun b s => if b = endByte then .next (s.countReset.enter .dApply) else .next (s.raise .endByteError)

/-- `D_APPLY`: one pair into `IN`, skipped if its id is out of range, or the response OK (R152, R180). -/
def stepApply (s : State) : Result :=
  if s.index < s.itemCount then
    match s.pbuf[2 * s.index]?, s.pbuf[2 * s.index + 1]? with
    | some id, some v => .next ((if idInRange id then s.writeIn id.toNat v else s).countUp)
    | _, _ => .fault .noSuchBufferByte
  else .next (s.raise .ok)

end Sys2Proof.Machine
end

