-- ==== Sys2Proof/Machine/Framer.lean ====
section
/-! DEFINITION. ENCODE: the accepting step and the six `E_` phases (40_encode.md). -/

namespace Sys2Proof.Machine

/-- The accepting step of ENCODE (R121). -/
def execEncode (count : BitVec 16) (s : State) : Result :=
  s.accept fun s =>
    if countFits count then
      .next (((s.latchLength (lengthOfCount count)).countReset.startCks).enter .eBuild)
    else .next (s.raise .encodeLengthError)

/-- `E_BUILD`: one pair, or the checksum when all are built (R122, R123). -/
def stepBuild (s : State) : Result :=
  if s.index < s.itemCount then
    match s.readOut s.index with
    | some v =>
      .next ((((s.writeItem s.index ⟨positionId s.cnt, v⟩).updateCks (positionId s.cnt)).updateCks v).countUp)
    | none => .fault .noSuchSlot
  else .next (s.finishCks.enter .eStart)

/-- `E_START` (R124). -/
def stepSendStart (ready : Bool) (s : State) : Result :=
  s.pushTx startByte ready (State.enter .eLen)

/-- `E_LEN` (R125). -/
def stepSendLength (ready : Bool) (s : State) : Result :=
  s.pushTx s.len ready fun s => s.countReset.enter (if s.len = 0 then .eCks else .ePay)

/-- `E_PAY` (R126). -/
def stepSendPayload (ready : Bool) (s : State) : Result :=
  match s.pbuf[s.index]? with
  | some b => s.pushTx b ready fun s => if s.index + 1 = s.len.toNat then s.enter .eCks else s.countUp
  | none => .fault .noSuchBufferByte

/-- `E_CKS` (R127). -/
def stepSendChecksum (ready : Bool) (s : State) : Result :=
  s.pushTx s.lastCks ready (State.enter .eEnd)

/-- `E_END`: the response comes with the acceptance of the end sentinel (R128). -/
def stepSendEnd (ready : Bool) (s : State) : Result :=
  s.pushTx endByte ready (State.raise .ok)

end Sys2Proof.Machine
end

