-- ==== Sys2Proof/Machine/Flags.lean ====
section
/-! DEFINITION. The block holds no flags (R37). Its indications are the status code of a response, `app_err`, and the
output ports, which are functions of the state (R32). -/

namespace Sys2Proof.Machine

/-- The status codes' numbers (R240). -/
def Status.code : Status → BitVec 3
  | .ok => 0
  | .noData => 1
  | .serialBuffError => 2
  | .payloadError => 3
  | .timeoutError => 4
  | .checksumError => 5
  | .endByteError => 6
  | .encodeLengthError => 7

namespace State

/-- The store access of this step succeeded: `app_err` = 0 (R63, R64). -/
def accessOk (s : State) : State :=
  { s with appErr := false }

/-- The store access of this step is rejected: `app_err` = 1, nothing else (R65, R66). -/
def accessRejected (s : State) : State :=
  { s with appErr := true }

/-- `app_rdata` shows `v` (R64). -/
def showRead (v : Byte) (s : State) : State :=
  { s with appRdata := some v }

/-! ### Output ports (R32). A port with no value in the latest step shows a free value (assumption log 12). -/

/-- `cmd_ready` (R221). -/
def cmdReadyPort (s : State) : Bool := decide (s.phase = .idle)

/-- `busy` (R26). -/
def busyPort (s : State) : Bool := decide (s.phase ≠ .idle)

/-- `resp_valid` (R224). -/
def respValidPort (s : State) : Bool := s.resp.isSome

/-- `resp_status` (R224, R240). -/
def respStatusPort (s : State) : BitVec 3 :=
  match s.resp with
  | some status => status.code
  | none => Config.freeRespStatus s.draws

/-- `last_cks` (R24). -/
def lastCksPort (s : State) : Byte := s.lastCks

/-- `app_rdata` (R62, R64). -/
def appRdataPort (s : State) : Byte :=
  match s.appRdata with
  | some v => v
  | none => Config.freeAppRdata s.draws

/-- `app_err` (R66). -/
def appErrPort (s : State) : Bool := s.appErr

/-- `rx_avail`, as the stream drives it (R33). -/
def rxAvailPort (s : State) : Byte := s.rxAvail

/-- `rx_data`, as the stream drives it (R33). -/
def rxDataPort (s : State) : Byte :=
  match s.rxq with
  | b :: _ => b
  | [] => Config.freeRxData s.draws

/-- `rx_pop` (R33). -/
def rxPopPort (s : State) : Bool := s.rxPop

/-- `tx_valid` (R34). -/
def txValidPort (s : State) : Bool := s.tx.isSome

/-- `tx_data` (R34). -/
def txDataPort (s : State) : Byte :=
  match s.tx with
  | some b => b
  | none => Config.freeTxData s.draws

end State

end Sys2Proof.Machine
end

