-- ==== Sys2Proof/Machine/StorePort.lean ====
section
/-! DEFINITION. The application's store port: OUTW, OUTR, INR and the rejected write to `IN` (20_memory.md, 42_register_store.md). -/

namespace Sys2Proof.Machine

/-- OUTW (R63, R184). -/
def execOutw (addr : BitVec 6) (data : Byte) (s : State) : Result :=
  if slotExists addr then .next ((s.writeOut addr.toNat data).accessOk) else .next s.accessRejected

/-- A read through the port: the slot's byte, or 0x00 and `app_err` where there is no slot (R64, R66). -/
def State.portRead (v : Option Byte) (s : State) : State :=
  match v with
  | some v => (s.showRead v).accessOk
  | none => (s.showRead 0x00).accessRejected

/-- OUTR (R64, R185). -/
def execOutr (addr : BitVec 6) (s : State) : Result :=
  .next (s.portRead (s.readOut addr.toNat))

/-- INR (R64, R186). -/
def execInr (addr : BitVec 6) (s : State) : Result :=
  .next (s.portRead (s.readIn addr.toNat))

/-- STORE_RESERVED: a write aimed at `IN` is rejected, whatever the address (R65). -/
def execStoreReserved (s : State) : Result :=
  .next s.accessRejected

end Sys2Proof.Machine
end

