-- ==== Sys2Proof/Machine/Wire.lean ====
section
/-! DEFINITION. FRAME, and the results of ENCODE and DECODE as functions of bytes (R129, R154, R181). -/

namespace Sys2Proof.Machine

/-- FRAME: one frame arrives on the receive stream (R33, R90). Nothing else happens: reception is discovered only by
DECODE (R254), whose outcome on it is `decodeBuffered` (assumption log 9). -/
def execFrame (items : List Item) (checksum : Byte) (s : State) : Result :=
  .next (s.deliver (frameBytes items checksum))

/-- The dense pairs of the values `o`, ids from `k` on (R93). -/
def denseItems (k : Nat) : List Byte → List Item
  | [] => []
  | v :: o => ⟨BitVec.ofNat 8 k, v⟩ :: denseItems (k + 1) o

/-- The frame ENCODE emits for the values `o` (R129). -/
def encodeFrame (alg : CksAlg) (o : List Byte) : List Byte :=
  frameBytes (denseItems 0 o) (checksum alg (payloadBytes (denseItems 0 o)))

/-- APPLY as a function (R181). -/
def applyPayload : List Byte → Vector Byte numSlots → Vector Byte numSlots
  | id :: v :: rest, store =>
    applyPayload rest (if id.toNat < numSlots then store.setIfInBounds id.toNat v else store)
  | _, store => store

/-- What R154's function answers. -/
inductive Buffered where
  /-- a response, RXQ and `IN` after it, and `LASTCKS` if it was written -/
  | responds (status : Status) (rxq : List Byte) (inStore : Vector Byte numSlots) (lastCks : Option Byte)
  /-- DECODE waits in `D_LEN` with RXQ empty -/
  | waitsForLength
  /-- DECODE waits in `D_BODY` with RXQ as given -/
  | waitsForBody (rxq : List Byte)
  deriving DecidableEq, Repr

/-- The last part of R154: payload, checksum and end sentinel are all there. -/
def decodeBody (alg : CksAlg) (len : Nat) (body : List Byte) (inStore : Vector Byte numSlots) : Buffered :=
  match body.drop len with
  | c :: e :: rest =>
    if c ≠ checksum alg (body.take len) then
      .responds .checksumError (e :: rest) inStore (some (checksum alg (body.take len)))
    else if e ≠ endByte then .responds .endByteError rest inStore (some (checksum alg (body.take len)))
    else .responds .ok rest (applyPayload (body.take len) inStore) (some (checksum alg (body.take len)))
  | _ => .waitsForBody body

/-- `decode(q, IN)` of R154: DECODE when no byte arrives and no time passes. -/
def decodeBuffered (alg : CksAlg) (q : List Byte) (inStore : Vector Byte numSlots) : Buffered :=
  match q with
  | [] => .responds .noData [] inStore none
  | _ :: _ =>
    match q.dropWhile (· != startByte) with
    | [] => .responds .serialBuffError [] inStore none
    | [_] => .waitsForLength
    | _ :: l :: body =>
      if legalLength l then
        if l.toNat + 2 ≤ body.length then decodeBody alg l.toNat body inStore else .waitsForBody body
      else .responds .payloadError body inStore none

end Sys2Proof.Machine
end

