-- ==== Sys2Proof/Machine/Dispatch.lean ====
section
/-! DEFINITION. One arm per operation, each one call of its meaning. -/

namespace Sys2Proof.Machine

-- R99, R100, R90: the operations in the order of Instr
def exec (i : Instr) (s : State) : Host.Outcome State Fault Refusal :=
  match i with
  | .decode => Sys2Proof.Machine.execDecode s
  | .encode count => Sys2Proof.Machine.execEncode count s
  | .setTimeout duration => Sys2Proof.Machine.execSetTimeout duration s
  | .cmdReserved => Sys2Proof.Machine.execCmdReserved s
  | .outw addr data => Sys2Proof.Machine.execOutw addr data s
  | .outr addr => Sys2Proof.Machine.execOutr addr s
  | .inr addr => Sys2Proof.Machine.execInr addr s
  | .storeReserved => Sys2Proof.Machine.execStoreReserved s
  | .frame items checksum => Sys2Proof.Machine.execFrame items checksum s

end Sys2Proof.Machine
end

