-- ==== Sys2Proof/Machine/Cycle.lean ====
section
/-! DEFINITION. One cycle: arrivals, store-port reads, the sequencer, store-port writes (R11, R71, R227). -/

namespace Sys2Proof.Machine

/-- The receive stream's move: bytes that are exactly one frame run FRAME; others (a part of a frame, several frames,
garbage) are appended as they are (R33). -/
def arrive (i : Inputs) (s : State) : Result :=
  match decode (.wire i.rxBytes) with
  | .ok instr => exec instr s
  | .error _ => .next (s.deliver i.rxBytes)

/-- The application's access if it is no slot write: it sees the values the step began with (R71). -/
def portReads (i : Inputs) (s : State) : Result :=
  if i.appEn && !(decodeStore i.storeWord).writesSlot then exec (decodeStore i.storeWord) s else .next s

/-- The application's access if it is a slot write: after every read of the step (R71). -/
def portWrites (i : Inputs) (s : State) : Result :=
  if i.appEn && (decodeStore i.storeWord).writesSlot then exec (decodeStore i.storeWord) s else .next s

/-- One step of the operation in progress (R26). -/
def phaseStep (ready : Bool) (s : State) : Result :=
  match s.phase with
  | .idle => .next s
  | .eBuild => stepBuild s
  | .eStart => stepSendStart ready s
  | .eLen => stepSendLength ready s
  | .ePay => stepSendPayload ready s
  | .eCks => stepSendChecksum ready s
  | .eEnd => stepSendEnd ready s
  | .dSync => stepSync s
  | .dLen => stepLength s
  | .dBody => stepBody s
  | .dRead => stepRead s
  | .dCks => stepCompareChecksum s
  | .dEnd => stepCompareEnd s
  | .dApply => stepApply s

/-- The sequencer's move: in IDLE it accepts a presented command (R221, R222); otherwise it makes the step of its
phase if it moves in this cycle (R274; `go`). -/
def sequencer (go : Bool) (i : Inputs) (s : State) : Result :=
  if s.phase = .idle then
    if i.cmdValid then exec (decodeCommand i.commandWord) s else .next s
  else if go then phaseStep i.txReady s
  else .next s

/-- The sequencer moves when the lines say so, and always while a presented byte waits: it stays presented and its
acceptance completes the step (R34, R274). -/
def sequencerGoes (i : Inputs) (s : State) : Bool :=
  i.seqRun || s.txStalled

/-- One cycle under the input lines `i`. With `rst` = 1 the block is reset and nothing else of it happens (R270). -/
def cycle (i : Inputs) (s : State) : Result :=
  if i.rst then .next (((s.beginCycle i).deliver i.rxBytes).resetBlock)
  else
    andThen (arrive i (s.beginCycle i)) fun s1 =>
    andThen (portReads i s1) fun s2 =>
    andThen (sequencer (sequencerGoes i s) i s2) fun s3 =>
    portWrites i s3

/-- The lines that present exactly what stands on a port, and let nothing else happen: no arrival, no tick, no
sequencer step, no byte taken. -/
def presenting : PortWord → Inputs
  | .command w =>
    { Inputs.quiet with cmdValid := true, cmdOp := w.extractLsb' 16 2, cmdArg := w.extractLsb' 0 16, txReady := false, seqRun := false }
  | .store w =>
    { Inputs.quiet with
      appEn := true, appSel := w.getLsbD 15, appWe := w.getLsbD 14, appAddr := w.extractLsb' 8 6,
      appWdata := w.extractLsb' 0 8, txReady := false, seqRun := false }
  | .wire bytes => { Inputs.quiet with rxBytes := bytes, txReady := false, seqRun := false }

/-- `s` with `p` presented in its next cycle and the rest of the script after it. A command is accepted by an idle
sequencer only (R221), so a command word also finds `PHASE` = IDLE (assumption log 21). -/
def State.present (p : PortWord) (s : State) : State :=
  match p with
  | .command _ => { s with phase := .idle, script := presenting p :: s.script }
  | .store _ => { s with script := presenting p :: s.script }
  | .wire _ => { s with script := presenting p :: s.script }

end Sys2Proof.Machine
end

