-- ==== Sys2Proof/Machine/Step.lean ====
section
/-! DEFINITION. The step of the machine: the next cycle of its script. -/

namespace Sys2Proof.Machine

/-- One step: one cycle under the next input lines (R11; assumption log 1). -/
def step (s : State) : Host.Outcome State Fault Refusal :=
  cycle s.lines s

/-- `s` with the word `w` of a table row presented on its port in the next cycle. -/
def State.withFetchWord (s : State) (nbits w : Nat) : State :=
  match portWordOfTable nbits w with
  | some p => s.present p
  | none => s

end Sys2Proof.Machine
end

