-- ==== Sys2Proof/Safety.lean ====
section
/-! DEFINITION. Runs, the classes of environments that claims speak of, and the invariants of the machine. -/

namespace Sys2Proof.Machine

/-- `k` steps, to the first stop. -/
def run : Nat → State → Result
  | 0, s => .next s
  | k + 1, s => andThen (step s) (run k)

/-! ### Environments: what every cycle to come keeps to, the script's and those after its end -/

/-- No reset (R270). -/
def Inputs.noReset (i : Inputs) : Prop := i.rst = false

/-- No arrival, no tick, no reset: R154's premise; and the sequencer moves in every cycle (R274). -/
def Inputs.frozen (i : Inputs) : Prop :=
  i.rst = false ∧ i.rxBytes = [] ∧ i.tick = false ∧ i.seqRun = true

/-- No slot of `OUT` is written in the cycle (R280). -/
def Inputs.leavesOut (i : Inputs) : Prop :=
  i.appEn = true → (decodeStore i.storeWord).writesSlot = false

/-- No reset, the stream takes every byte (R284), the sequencer moves (R274). -/
def Inputs.attentive (i : Inputs) : Prop :=
  i.rst = false ∧ i.txReady = true ∧ i.seqRun = true

/-- Every cycle to come keeps to `p`, without end. -/
def State.scriptAll (s : State) (p : Inputs → Prop) : Prop :=
  (∀ i ∈ s.script, p i) ∧ p s.rest

/-- The bytes that arrive in the first `k` cycles under `script` and the lines `rest` after it (R33). -/
def arrivals : Nat → List Inputs → Inputs → List Byte
  | 0, _, _ => []
  | k + 1, script, rest => (script.headD rest).rxBytes ++ arrivals k script.tail rest

/-- The next cycle accepts the command `i`: the block is idle, no reset, and `i`'s word stands on the port (R221). -/
def State.accepts (s : State) (i : Instr) : Prop :=
  s.phase = .idle ∧ s.lines.rst = false ∧ s.lines.cmdValid = true ∧ decodeCommand s.lines.commandWord = i

/-- No response in the steps 1 to `k - 1` of the run from `s` (R224). -/
def State.silentBefore (s : State) (k : Nat) : Prop :=
  ∀ j t, 0 < j → j < k → run j s = .next t → t.resp = none

/-- `t` is the state of the first response to the command accepted in the next cycle of `s`, `k` steps on, and the
response is `status` (R224). -/
def State.respondsAt (s : State) (k : Nat) (t : State) (status : Status) : Prop :=
  0 < k ∧ run k s = .next t ∧ t.resp = some status ∧ s.silentBefore k

/-! ### The stores as memories: a fixed array has one form, the cells of addresses 0..39 in rising order -/

/-- The cells of a register store, lowest address first (R69). -/
def storeCells {n : Nat} (store : Vector Byte n) : List Host.Cell :=
  store.toList.zipIdx.map fun c => (c.2, c.1)

/-- Addresses strictly rising: the canonical form (assumption log 23). -/
def cellsCanonical (cells : List Host.Cell) : Bool :=
  decide ((cells.map Prod.fst).Pairwise (· < ·))

/-- Both stores are in canonical form. -/
def Memory.wf (s : State) : Bool :=
  cellsCanonical (storeCells s.outStore) && cellsCanonical (storeCells s.inStore)

/-! ### Frames: what a step leaves unchanged from `s` to `t` -/

/-- Every slot of `OUT` reads as before. -/
def SameOut (s t : State) : Prop := ∀ a, t.readOut a = s.readOut a

/-- Every slot of `IN` reads as before. -/
def SameIn (s t : State) : Prop := ∀ a, t.readIn a = s.readIn a

/-- `TIMEOUT` and `LASTCKS` are unchanged. -/
def SameControl (s t : State) : Prop := t.timeout = s.timeout ∧ t.lastCks = s.lastCks

/-- The sequencer's registers but `PHASE` are unchanged: `ACC`, `T0`, `LEN`, `CNT`, `PBUF`. -/
def SameInternal (s t : State) : Prop :=
  t.acc = s.acc ∧ t.t0 = s.t0 ∧ t.len = s.len ∧ t.cnt = s.cnt ∧ t.pbuf = s.pbuf

/-- RXQ, TXQ and `now` are unchanged. -/
def SameStreams (s t : State) : Prop := t.rxq = s.rxq ∧ t.txq = s.txq ∧ t.now = s.now

/-- The outputs of the command port and of the streams are unchanged. -/
def SameResponse (s t : State) : Prop :=
  t.resp = s.resp ∧ t.rxPop = s.rxPop ∧ t.tx = s.tx ∧ t.txTaken = s.txTaken

/-- The outputs of the store port are unchanged. -/
def SameAccess (s t : State) : Prop := t.appErr = s.appErr ∧ t.appRdata = s.appRdata

/-- The lines to come, the build parameters and the counter of free values are unchanged. -/
def SameModel (s t : State) : Prop := t.script = s.script ∧ t.rest = s.rest ∧ t.build = s.build ∧ t.draws = s.draws

/-! ### Invariants -/

/-- The length of the frame in progress is legal (R92). -/
def State.lenLegal (s : State) : Prop := legalLength s.len = true

/-- Where the counters stand in each phase, and how many bytes phase 4 still finds in RXQ (R28, R29, R147). -/
def State.CountersOk (s : State) : Prop :=
  match s.phase with
  | .idle => True
  | .eBuild => s.lenLegal ∧ s.index ≤ s.itemCount
  | .eStart => s.lenLegal
  | .eLen => s.lenLegal
  | .ePay => s.lenLegal ∧ s.index < s.len.toNat
  | .eCks => s.lenLegal
  | .eEnd => s.lenLegal
  | .dSync => True
  | .dLen => True
  | .dBody => s.lenLegal
  | .dRead => s.lenLegal ∧ s.index ≤ s.len.toNat ∧ s.len.toNat + 2 ≤ s.rxq.length + s.index
  | .dCks => s.lenLegal ∧ 2 ≤ s.rxq.length
  | .dEnd => s.lenLegal ∧ 1 ≤ s.rxq.length
  | .dApply => s.lenLegal ∧ s.index ≤ s.itemCount

/-- The accumulator is the checksum engine's over the first `n` buffered bytes (R25, R207). -/
def State.accCovers (s : State) (n : Nat) : Prop :=
  s.acc = cksAcc s.build.cksAlg (s.buffered n)

/-- `LASTCKS` is the checksum of the frame's payload (R24, R207). -/
def State.cksCovers (s : State) : Prop :=
  s.lastCks = checksum s.build.cksAlg (s.buffered s.len.toNat)

/-- The first `n` pairs of the payload buffer carry their positions as ids (R93). -/
def State.idsDense (s : State) (n : Nat) : Prop :=
  ∀ k, k < n → s.pbuf[2 * k]? = some (BitVec.ofNat 8 k)

/-- In every phase the checksum registers belong to the bytes in the payload buffer (R122, R149, R280). -/
def State.ChecksumOk (s : State) : Prop :=
  match s.phase with
  | .idle => True
  | .eBuild => s.accCovers (2 * s.index) ∧ s.idsDense s.index
  | .eStart => s.cksCovers ∧ s.idsDense s.itemCount
  | .eLen => s.cksCovers ∧ s.idsDense s.itemCount
  | .ePay => s.cksCovers ∧ s.idsDense s.itemCount
  | .eCks => s.cksCovers ∧ s.idsDense s.itemCount
  | .eEnd => s.cksCovers ∧ s.idsDense s.itemCount
  | .dSync => True
  | .dLen => True
  | .dBody => True
  | .dRead => s.accCovers s.index
  | .dCks => s.cksCovers
  | .dEnd => s.cksCovers
  | .dApply => s.cksCovers

/-- The byte a transmit phase presents (R124 to R128). -/
def State.presentedByte (s : State) : Option Byte :=
  match s.phase with
  | .eStart => some startByte
  | .eLen => some s.len
  | .ePay => s.pbuf[s.index]?
  | .eCks => some s.lastCks
  | .eEnd => some endByte
  | .idle => none
  | .eBuild => none
  | .dSync => none
  | .dLen => none
  | .dBody => none
  | .dRead => none
  | .dCks => none
  | .dEnd => none
  | .dApply => none

/-- A byte that waits for the stream is the one its phase presents: it stays stable (R34). -/
def State.StallOk (s : State) : Prop :=
  s.txStalled = true → s.tx = s.presentedByte

/-- The machine's invariant. -/
def State.Inv (s : State) : Prop :=
  s.CountersOk ∧ s.ChecksumOk ∧ s.StallOk

end Sys2Proof.Machine
end

