-- ==== Sys2Proof/Certificates/Slice0/Obligations.lean ====
section
/-! DEFINITION. The statements about the machine, each with the rule it formalises. None rests on the value of a free
constant of Config. -/

open Sys2Proof Sys2Proof.Machine

/-! ### Words and steps -/

/-- Words written out from R99, R100 and the frame of R140's example. -/
def Obligations.WrittenOutWordsDecode : Prop :=
  decode (.command 0b000000000000000000#18) = .ok .decode ∧
  decode (.command 0b010000000000000011#18) = .ok (.encode 3) ∧
  decode (.command 0b100000000111110100#18) = .ok (.setTimeout 500) ∧
  decode (.command 0b110000000000000000#18) = .ok .cmdReserved ∧
  decode (.store 0b0110011110011001#16) = .ok (.outw 39 0x99) ∧
  decode (.store 0b0000011100000000#16) = .ok (.outr 7) ∧
  decode (.store 0b1010100000000000#16) = .ok (.inr 40) ∧
  decode (.store 0b1100001011111111#16) = .ok .storeReserved ∧
  decode (.wire [0x7E, 0x06, 0x00, 0x0A, 0x01, 0x14, 0x02, 0x1E, 0xC1, 0xEF]) =
    .ok (.frame [⟨0, 10⟩, ⟨1, 20⟩, ⟨2, 30⟩] 0xC1)

/-- Every one of the 2^18 command words reads as the pattern strings of R99 say. -/
def Obligations.CommandPatternsRead : Prop :=
  ∀ w : BitVec 18,
    (w &&& 0x30000#18 = 0x00000#18 → decode (.command w) = .ok .decode) ∧
    (w &&& 0x30000#18 = 0x10000#18 → decode (.command w) = .ok (.encode (w.setWidth 16))) ∧
    (w &&& 0x30000#18 = 0x20000#18 → decode (.command w) = .ok (.setTimeout (w.setWidth 16))) ∧
    (w &&& 0x30000#18 = 0x30000#18 → decode (.command w) = .ok .cmdReserved)

/-- Every one of the 2^16 store words reads as the patterns of R100 say. -/
def Obligations.StorePatternsRead : Prop :=
  ∀ w : BitVec 16,
    (w &&& 0xC000#16 = 0x4000#16 → decode (.store w) = .ok (.outw ((w >>> 8).setWidth 6) (w.setWidth 8))) ∧
    (w &&& 0xC000#16 = 0x0000#16 → decode (.store w) = .ok (.outr ((w >>> 8).setWidth 6))) ∧
    (w &&& 0xC000#16 = 0x8000#16 → decode (.store w) = .ok (.inr ((w >>> 8).setWidth 6))) ∧
    (w &&& 0xC000#16 = 0xC000#16 → decode (.store w) = .ok .storeReserved)

/-- Decoding the encoding of a well-formed operation gives it back, every operand at every value. That the encoder writes
0 in ignored bits is the model's choice (assumption log 11). -/
def Obligations.DecodeOfEncode : Prop :=
  ∀ i : Instr, i.wellFormed = true → decode (encode i) = .ok i

/-- The other direction on the wire: bytes that decode are the encoding of a well-formed frame, so each frame has one
byte sequence and nothing else is accepted as one (R90 to R92). -/
def Obligations.EncodeOfDecodedWire : Prop :=
  ∀ (bytes : List Byte) (i : Instr), decode (.wire bytes) = .ok i → i.wellFormed = true ∧ encode i = .wire bytes

/-- A command presented to the idle block runs as exactly its decoded operation; the step adds the cycle's beginning
(`beginCycle`) and the bytes that arrive in it. What a step is, is the model's choice (assumption log 1). -/
def Obligations.StepRunsPresentedCommand : Prop :=
  ∀ (s : State) (i : Instr), s.phase = .idle → s.lines.rst = false → s.lines.appEn = false → s.lines.cmdValid = true →
    decode (.command s.lines.commandWord) = .ok i →
    step s = exec i ((s.beginCycle s.lines).deliver s.lines.rxBytes)

/-- A store access runs as exactly its decoded operation when the sequencer makes no move in the cycle (what a step is:
assumption log 1). -/
def Obligations.StepRunsPresentedAccess : Prop :=
  ∀ (s : State) (i : Instr), s.lines.rst = false → s.lines.appEn = true →
    (s.phase = .idle ∧ s.lines.cmdValid = false ∨ s.phase ≠ .idle ∧ sequencerGoes s.lines s = false) →
    decode (.store s.lines.storeWord) = .ok i →
    step s = exec i ((s.beginCycle s.lines).deliver s.lines.rxBytes)

/-- A frame that arrives runs as FRAME when nothing else happens in the cycle. That FRAME is its arrival is the model's
choice (assumption log 9). -/
def Obligations.StepRunsArrivingFrame : Prop :=
  ∀ (s : State) (i : Instr), s.lines.rst = false → s.lines.appEn = false →
    (s.phase = .idle ∧ s.lines.cmdValid = false ∨ s.phase ≠ .idle ∧ sequencerGoes s.lines s = false) →
    decode (.wire s.lines.rxBytes) = .ok i →
    step s = exec i (s.beginCycle s.lines)

/-- A busy sequencer that moves makes the step of its phase, after the arrivals of the cycle (their order: assumption
log 1). -/
def Obligations.StepRunsPhase : Prop :=
  ∀ s : State, s.lines.rst = false → s.lines.appEn = false → s.phase ≠ .idle → sequencerGoes s.lines s = true →
    step s = phaseStep s.lines.txReady ((s.beginCycle s.lines).deliver s.lines.rxBytes)

/-- A table row's word placed by `withFetchWord` is what the very next step runs (the model's choice: assumption log 21). -/
def Obligations.WithFetchWordRunsTheWord : Prop :=
  ∀ (s : State) (nbits w : Nat) (i : Instr), decodeTableWord nbits w = some i → s.txStalled = false →
    step (s.withFetchWord nbits w) =
      exec i ((s.withFetchWord nbits w).beginCycle (s.withFetchWord nbits w).lines)

/-- Same-step accesses (R71): the sequencer's `E_BUILD` obtains the slot's value from before an OUTW of the same cycle,
and an INR obtains the slot's value from before a `D_APPLY` write of the same cycle. -/
def Obligations.SameStepReadsPrecedeWrites : Prop :=
  ∀ (s t : State), s.lines.rst = false → s.lines.appEn = true → s.lines.seqRun = true → step s = .next t →
    (s.phase = .eBuild → s.index < s.itemCount → s.itemCount ≤ 40 →
      t.pbuf[2 * s.index + 1]? = s.readOut s.index) ∧
    (∀ a : BitVec 6, decodeStore s.lines.storeWord = .inr a → a.toNat < 40 → t.appRdata = s.readIn a.toNat) ∧
    (∀ (a : BitVec 6) (v : Byte), decodeStore s.lines.storeWord = .outw a v → a.toNat < 40 →
      t.readOut a.toNat = some v)

/-! ### The store port -/

/-- OUTW (R63): the addressed slot and `app_err`, nothing else; an index of 40..63 changes no state. -/
def Obligations.OutwWritesOneSlot : Prop :=
  ∀ (s : State) (a : BitVec 6) (v : Byte), ∃ t, exec (.outw a v) s = .next t ∧
    (a.toNat < 40 → t.readOut a.toNat = some v ∧ t.appErr = false) ∧
    (¬ a.toNat < 40 → t.readOut a.toNat = s.readOut a.toNat ∧ t.appErr = true) ∧
    (∀ b, b ≠ a.toNat → t.readOut b = s.readOut b) ∧
    SameIn s t ∧ SameControl s t ∧ t.phase = s.phase ∧ SameInternal s t ∧ SameStreams s t ∧ SameResponse s t ∧
    t.appRdata = s.appRdata ∧ SameModel s t

/-- OUTR and INR (R64): the byte held, or 0x00 and `app_err`; no state changes. -/
def Obligations.PortReadsReturnTheSlot : Prop :=
  ∀ (s : State) (a : BitVec 6),
    (∃ t, exec (.outr a) s = .next t ∧
      (a.toNat < 40 → t.appRdata = s.readOut a.toNat ∧ t.appRdata.isSome = true ∧ t.appErr = false) ∧
      (¬ a.toNat < 40 → t.appRdata = some 0x00 ∧ t.appErr = true) ∧
      SameOut s t ∧ SameIn s t ∧ SameControl s t ∧ t.phase = s.phase ∧ SameInternal s t ∧ SameStreams s t ∧
      SameResponse s t ∧ SameModel s t) ∧
    (∃ t, exec (.inr a) s = .next t ∧
      (a.toNat < 40 → t.appRdata = s.readIn a.toNat ∧ t.appRdata.isSome = true ∧ t.appErr = false) ∧
      (¬ a.toNat < 40 → t.appRdata = some 0x00 ∧ t.appErr = true) ∧
      SameOut s t ∧ SameIn s t ∧ SameControl s t ∧ t.phase = s.phase ∧ SameInternal s t ∧ SameStreams s t ∧
      SameResponse s t ∧ SameModel s t)

/-- A write aimed at `IN` (R65) changes no state and sets `app_err`, whatever the address and the data. -/
def Obligations.WriteToInIsRejected : Prop :=
  ∀ (s : State) (w : BitVec 16), w.getLsbD 15 = true → w.getLsbD 14 = true →
    decodeStore w = .storeReserved ∧
    ∃ t, exec .storeReserved s = .next t ∧ t.appErr = true ∧ t.appRdata = s.appRdata ∧
      SameOut s t ∧ SameIn s t ∧ SameControl s t ∧ t.phase = s.phase ∧ SameInternal s t ∧ SameStreams s t ∧
      SameResponse s t ∧ SameModel s t

/-! ### The command port -/

/-- SET_TIMEOUT (R226) in an idle block: `TIMEOUT` and the response OK; `PHASE` stays IDLE. That the internal
registers keep their values while no command runs is the model's choice (assumption log 24). -/
def Obligations.SetTimeoutWritesTimeout : Prop :=
  ∀ (s : State) (d : BitVec 16), s.phase = .idle → ∃ t, exec (.setTimeout d) s = .next t ∧
    t.timeout = d ∧ t.resp = some .ok ∧ t.phase = .idle ∧
    SameOut s t ∧ SameIn s t ∧ t.lastCks = s.lastCks ∧ SameInternal s t ∧ SameStreams s t ∧
    t.rxPop = s.rxPop ∧ t.tx = s.tx ∧ t.txTaken = s.txTaken ∧ SameAccess s t ∧ SameModel s t

/-- The reserved command code (R223) in an idle block, whatever its argument: no state changes, no response, nothing
transmitted or popped; `PHASE` stays IDLE. R223 advises a model to refuse; running its effect is the model's choice
(assumption log 8). -/
def Obligations.ReservedCommandHasNoEffect : Prop :=
  ∀ (s : State) (arg : BitVec 16), s.phase = .idle →
    decodeCommand (commandWord 0b11#2 arg) = .cmdReserved ∧
    ∃ t, exec .cmdReserved s = .next t ∧ t.phase = .idle ∧
      SameOut s t ∧ SameIn s t ∧ SameControl s t ∧ SameInternal s t ∧ SameStreams s t ∧ SameResponse s t ∧
      SameAccess s t ∧ SameModel s t

/-- ENCODE's accepting step (R121): the two branches, all 16 bits of the count compared. That registers it does not
write keep their values is the model's choice (assumption log 24). -/
def Obligations.EncodeAcceptingStep : Prop :=
  ∀ (s : State) (count : BitVec 16), s.phase = .idle → ∃ t, exec (.encode count) s = .next t ∧
    (count.toNat ≤ 40 →
      t.len.toNat = 2 * count.toNat ∧ t.cnt = 0 ∧ t.acc = cksInit s.build.cksAlg ∧ t.phase = .eBuild ∧ t.resp = s.resp ∧
      t.t0 = s.t0 ∧ t.pbuf = s.pbuf) ∧
    (40 < count.toNat → t.resp = some .encodeLengthError ∧ t.phase = .idle ∧ SameInternal s t) ∧
    SameOut s t ∧ SameIn s t ∧ SameControl s t ∧ SameStreams s t ∧
    t.rxPop = s.rxPop ∧ t.tx = s.tx ∧ t.txTaken = s.txTaken ∧ SameAccess s t ∧ SameModel s t

/-- DECODE's accepting step (R141). That registers it does not write keep their values is the model's choice (assumption
log 24). -/
def Obligations.DecodeAcceptingStep : Prop :=
  ∀ s : State, s.phase = .idle → ∃ t, exec .decode s = .next t ∧
    (s.rxq = [] → t.resp = some .noData ∧ t.phase = .idle ∧ t.t0 = s.t0) ∧
    (s.rxq ≠ [] → t.resp = s.resp ∧ t.phase = .dSync ∧ t.t0 = s.now) ∧
    t.acc = s.acc ∧ t.len = s.len ∧ t.cnt = s.cnt ∧ t.pbuf = s.pbuf ∧
    SameOut s t ∧ SameIn s t ∧ SameControl s t ∧ SameStreams s t ∧
    t.rxPop = s.rxPop ∧ t.tx = s.tx ∧ t.txTaken = s.txTaken ∧ SameAccess s t ∧ SameModel s t

/-- A command presented to a busy block is not accepted: nothing happens (R221; that its meaning then answers the same
state is the model's choice, assumption log 17). -/
def Obligations.BusyBlockAcceptsNothing : Prop :=
  ∀ (s : State) (count duration : BitVec 16), s.phase ≠ .idle →
    exec .decode s = .next s ∧ exec (.encode count) s = .next s ∧ exec (.setTimeout duration) s = .next s ∧
    exec .cmdReserved s = .next s

/-- While the block is busy the command lines have no influence at all: the step is the same whatever stands on them
(R221; DECODE, ENCODE and SET_TIMEOUT wait). -/
def Obligations.BusyStepIgnoresCommandLines : Prop :=
  ∀ (s : State) (i : Inputs) (v : Bool) (op : BitVec 2) (arg : BitVec 16), s.phase ≠ .idle →
    cycle { i with cmdValid := v, cmdOp := op, cmdArg := arg } s = cycle i s

/-- FRAME arrives: its LEN + 4 bytes join the tail of RXQ in wire order, and nothing else changes (R33, R90).
That FRAME is its arrival, and that the internal registers keep their values while no command runs, is the model's choice
(assumption log 9, 24). -/
def Obligations.FrameJoinsReceiveQueue : Prop :=
  ∀ (s : State) (items : List Item) (c : Byte), items.length ≤ 40 →
    ∃ t, exec (.frame items c) s = .next t ∧
      (∃ l : Byte, l.toNat = 2 * items.length ∧
        t.rxq = s.rxq ++ 0x7E :: l :: (items.flatMap (fun p => [p.id, p.value]) ++ [c, 0xEF])) ∧
      t.txq = s.txq ∧ t.now = s.now ∧
      SameOut s t ∧ SameIn s t ∧ SameControl s t ∧ t.phase = s.phase ∧ SameInternal s t ∧ SameResponse s t ∧
      SameAccess s t ∧ SameModel s t

/-! ### ENCODE's phases -/

/-- `E_BUILD` (R122, R123). -/
def Obligations.BuildStep : Prop :=
  ∀ (ready : Bool) (s : State), s.phase = .eBuild → s.itemCount ≤ 40 → ∃ t, phaseStep ready s = .next t ∧
    (s.index < s.itemCount → ∃ v id, s.readOut s.index = some v ∧ id = BitVec.ofNat 8 s.index ∧
      t.pbuf[2 * s.index]? = some id ∧ t.pbuf[2 * s.index + 1]? = some v ∧
      (∀ j, j ≠ 2 * s.index → j ≠ 2 * s.index + 1 → t.pbuf[j]? = s.pbuf[j]?) ∧
      t.acc = cksUpdate s.build.cksAlg (cksUpdate s.build.cksAlg s.acc id) v ∧
      t.index = s.index + 1 ∧ t.phase = .eBuild ∧ t.lastCks = s.lastCks) ∧
    (¬ s.index < s.itemCount → t.lastCks = cksFinal s.build.cksAlg s.acc ∧ t.phase = .eStart ∧
      t.acc = s.acc ∧ t.cnt = s.cnt ∧ t.pbuf = s.pbuf) ∧
    t.len = s.len ∧ t.t0 = s.t0 ∧ t.timeout = s.timeout ∧
    SameOut s t ∧ SameIn s t ∧ SameStreams s t ∧ SameResponse s t ∧ SameAccess s t ∧ SameModel s t

/-- The transmit phases `E_START`, `E_LEN`, `E_PAY`, `E_CKS`, `E_END` (R124 to R128): the phase's byte is presented;
with `tx_ready` = 1 it enters TXQ and the phase moves on as its rule says; with `tx_ready` = 0 nothing changes. That the
internal registers stay as they are when the command ends is the model's choice (assumption log 24). -/
def Obligations.TransmitPhases : Prop :=
  ∀ (ready : Bool) (s : State),
    s.phase = .eStart ∨ s.phase = .eLen ∨ (s.phase = .ePay ∧ s.index < 80) ∨ s.phase = .eCks ∨ s.phase = .eEnd →
    ∃ t b, phaseStep ready s = .next t ∧ t.tx = some b ∧
      (s.phase = .eStart → b = 0x7E) ∧ (s.phase = .eLen → b = s.len) ∧ (s.phase = .ePay → s.pbuf[s.index]? = some b) ∧
      (s.phase = .eCks → b = s.lastCks) ∧ (s.phase = .eEnd → b = 0xEF) ∧
      (ready = false → t.txq = s.txq ∧ t.txTaken = s.txTaken ∧ t.phase = s.phase ∧ t.cnt = s.cnt ∧ t.resp = s.resp) ∧
      (ready = true → t.txq = s.txq ++ [b] ∧ t.txTaken = true ∧
        (s.phase = .eStart → t.phase = .eLen ∧ t.cnt = s.cnt ∧ t.resp = s.resp) ∧
        (s.phase = .eLen → t.cnt = 0 ∧ t.phase = (if s.len = 0 then .eCks else .ePay) ∧ t.resp = s.resp) ∧
        (s.phase = .ePay → s.index + 1 = s.len.toNat → t.phase = .eCks ∧ t.cnt = s.cnt ∧ t.resp = s.resp) ∧
        (s.phase = .ePay → s.index + 1 ≠ s.len.toNat →
          t.phase = .ePay ∧ t.index = s.index + 1 ∧ t.resp = s.resp) ∧
        (s.phase = .eCks → t.phase = .eEnd ∧ t.cnt = s.cnt ∧ t.resp = s.resp) ∧
        (s.phase = .eEnd → t.phase = .idle ∧ t.resp = some .ok ∧ t.cnt = s.cnt)) ∧
      SameOut s t ∧ SameIn s t ∧ SameControl s t ∧ t.acc = s.acc ∧ t.t0 = s.t0 ∧ t.len = s.len ∧ t.pbuf = s.pbuf ∧
      t.rxq = s.rxq ∧ t.now = s.now ∧ t.rxPop = s.rxPop ∧ SameAccess s t ∧ SameModel s t

/-! ### DECODE's phases -/

/-- `D_SYNC` (R142): empty, then sentinel, then timeout, in this order. That the
internal registers stay as they are when the command ends is the model's choice (assumption log 24). -/
def Obligations.SyncStep : Prop :=
  ∀ (ready : Bool) (s : State), s.phase = .dSync → ∃ t, phaseStep ready s = .next t ∧
    (s.rxq = [] → t.resp = some .serialBuffError ∧ t.phase = .idle ∧ t.rxq = [] ∧ t.rxPop = s.rxPop ∧ t.t0 = s.t0) ∧
    (∀ q, s.rxq = 0x7E :: q → t.rxq = q ∧ t.rxPop = true ∧ t.t0 = s.now ∧ t.phase = .dLen ∧ t.resp = s.resp) ∧
    (∀ b q, s.rxq = b :: q → b ≠ 0x7E → t.rxq = q ∧ t.rxPop = true ∧ t.t0 = s.t0 ∧
      (s.timeout.toNat < (s.now - s.t0).toNat → t.resp = some .timeoutError ∧ t.phase = .idle) ∧
      (¬ s.timeout.toNat < (s.now - s.t0).toNat → t.resp = s.resp ∧ t.phase = .dSync)) ∧
    t.acc = s.acc ∧ t.len = s.len ∧ t.cnt = s.cnt ∧ t.pbuf = s.pbuf ∧ t.txq = s.txq ∧ t.now = s.now ∧
    SameOut s t ∧ SameIn s t ∧ SameControl s t ∧ t.tx = s.tx ∧ t.txTaken = s.txTaken ∧ SameAccess s t ∧ SameModel s t

/-- `D_LEN` (R144): a byte that is there is read before the timeout is looked at. That the
internal registers stay as they are when the command ends is the model's choice (assumption log 24). -/
def Obligations.LengthStep : Prop :=
  ∀ (ready : Bool) (s : State), s.phase = .dLen → ∃ t, phaseStep ready s = .next t ∧
    (∀ b q, s.rxq = b :: q → t.rxq = q ∧ t.rxPop = true ∧ t.len = b ∧
      (b.toNat % 2 = 1 ∨ 80 < b.toNat → t.resp = some .payloadError ∧ t.phase = .idle ∧ t.t0 = s.t0) ∧
      (¬ (b.toNat % 2 = 1 ∨ 80 < b.toNat) → t.t0 = s.now ∧ t.phase = .dBody ∧ t.resp = s.resp)) ∧
    (s.rxq = [] → t.rxq = [] ∧ t.rxPop = s.rxPop ∧ t.len = s.len ∧ t.t0 = s.t0 ∧
      (s.timeout.toNat < (s.now - s.t0).toNat → t.resp = some .timeoutError ∧ t.phase = .idle) ∧
      (¬ s.timeout.toNat < (s.now - s.t0).toNat → t.resp = s.resp ∧ t.phase = .dLen)) ∧
    t.acc = s.acc ∧ t.cnt = s.cnt ∧ t.pbuf = s.pbuf ∧ t.txq = s.txq ∧ t.now = s.now ∧
    SameOut s t ∧ SameIn s t ∧ SameControl s t ∧ t.tx = s.tx ∧ t.txTaken = s.txTaken ∧ SameAccess s t ∧ SameModel s t

/-- `D_BODY` (R146) for a legal length: data before timeout, and nothing is popped. That the
internal registers stay as they are when the command ends is the model's choice (assumption log 24). -/
def Obligations.BodyStep : Prop :=
  ∀ (ready : Bool) (s : State), s.phase = .dBody → s.lenLegal → ∃ t, phaseStep ready s = .next t ∧
    (s.len.toNat + 2 ≤ s.rxq.length →
      t.cnt = 0 ∧ t.acc = cksInit s.build.cksAlg ∧ t.phase = .dRead ∧ t.resp = s.resp) ∧
    (s.rxq.length < s.len.toNat + 2 → t.cnt = s.cnt ∧ t.acc = s.acc ∧
      (s.timeout.toNat < (s.now - s.t0).toNat → t.resp = some .timeoutError ∧ t.phase = .idle) ∧
      (¬ s.timeout.toNat < (s.now - s.t0).toNat → t.resp = s.resp ∧ t.phase = .dBody)) ∧
    t.len = s.len ∧ t.t0 = s.t0 ∧ t.pbuf = s.pbuf ∧ SameOut s t ∧ SameIn s t ∧ SameControl s t ∧ SameStreams s t ∧
    t.rxPop = s.rxPop ∧ t.tx = s.tx ∧ t.txTaken = s.txTaken ∧ SameAccess s t ∧ SameModel s t

/-- `D_READ` (R148, R149). -/
def Obligations.ReadStep : Prop :=
  ∀ (ready : Bool) (s : State), s.phase = .dRead → s.index < 80 ∨ s.len.toNat ≤ s.index →
    s.rxq ≠ [] ∨ s.len.toNat ≤ s.index → ∃ t, phaseStep ready s = .next t ∧
    (∀ b q, s.index < s.len.toNat → s.rxq = b :: q →
      t.rxq = q ∧ t.rxPop = true ∧ t.pbuf[s.index]? = some b ∧ (∀ j, j ≠ s.index → t.pbuf[j]? = s.pbuf[j]?) ∧
      t.acc = cksUpdate s.build.cksAlg s.acc b ∧ t.index = s.index + 1 ∧ t.phase = .dRead ∧ t.lastCks = s.lastCks) ∧
    (s.len.toNat ≤ s.index →
      t.lastCks = cksFinal s.build.cksAlg s.acc ∧ t.phase = .dCks ∧ t.rxq = s.rxq ∧ t.rxPop = s.rxPop ∧
      t.pbuf = s.pbuf ∧ t.acc = s.acc ∧ t.cnt = s.cnt) ∧
    t.len = s.len ∧ t.t0 = s.t0 ∧ t.timeout = s.timeout ∧ t.txq = s.txq ∧ t.now = s.now ∧ t.resp = s.resp ∧
    SameOut s t ∧ SameIn s t ∧ t.tx = s.tx ∧ t.txTaken = s.txTaken ∧ SameAccess s t ∧ SameModel s t

/-- `D_CKS` (R150): on a mismatch the end byte stays in RXQ. That the
internal registers stay as they are when the command ends is the model's choice (assumption log 24). -/
def Obligations.CompareChecksumStep : Prop :=
  ∀ (ready : Bool) (s : State) (b : Byte) (q : List Byte), s.phase = .dCks → s.rxq = b :: q →
    ∃ t, phaseStep ready s = .next t ∧ t.rxq = q ∧ t.rxPop = true ∧
    (b ≠ s.lastCks → t.resp = some .checksumError ∧ t.phase = .idle) ∧
    (b = s.lastCks → t.resp = s.resp ∧ t.phase = .dEnd) ∧
    SameInternal s t ∧ SameOut s t ∧ SameIn s t ∧ SameControl s t ∧ t.txq = s.txq ∧ t.now = s.now ∧
    t.tx = s.tx ∧ t.txTaken = s.txTaken ∧ SameAccess s t ∧ SameModel s t

/-- `D_END` (R151): the byte is consumed either way. That the
internal registers stay as they are when the command ends is the model's choice (assumption log 24). -/
def Obligations.CompareEndStep : Prop :=
  ∀ (ready : Bool) (s : State) (b : Byte) (q : List Byte), s.phase = .dEnd → s.rxq = b :: q →
    ∃ t, phaseStep ready s = .next t ∧ t.rxq = q ∧ t.rxPop = true ∧
    (b ≠ 0xEF → t.resp = some .endByteError ∧ t.phase = .idle ∧ t.cnt = s.cnt) ∧
    (b = 0xEF → t.resp = s.resp ∧ t.phase = .dApply ∧ t.cnt = 0) ∧
    t.acc = s.acc ∧ t.t0 = s.t0 ∧ t.len = s.len ∧ t.pbuf = s.pbuf ∧
    SameOut s t ∧ SameIn s t ∧ SameControl s t ∧ t.txq = s.txq ∧ t.now = s.now ∧
    t.tx = s.tx ∧ t.txTaken = s.txTaken ∧ SameAccess s t ∧ SameModel s t

/-- `D_APPLY` (R180, R183): one pair, skipped if its id is 40 or more, or the response OK. That the
internal registers stay as they are when the command ends is the model's choice (assumption log 24). -/
def Obligations.ApplyStep : Prop :=
  ∀ (ready : Bool) (s : State), s.phase = .dApply → s.itemCount ≤ 40 → ∃ t, phaseStep ready s = .next t ∧
    (s.index < s.itemCount → ∃ id v, s.pbuf[2 * s.index]? = some id ∧ s.pbuf[2 * s.index + 1]? = some v ∧
      (id.toNat < 40 → t.readIn id.toNat = some v ∧ ∀ a, a ≠ id.toNat → t.readIn a = s.readIn a) ∧
      (¬ id.toNat < 40 → SameIn s t) ∧ t.index = s.index + 1 ∧ t.phase = .dApply ∧ t.resp = s.resp) ∧
    (¬ s.index < s.itemCount → t.resp = some .ok ∧ t.phase = .idle ∧ t.cnt = s.cnt ∧ SameIn s t) ∧
    t.acc = s.acc ∧ t.t0 = s.t0 ∧ t.len = s.len ∧ t.pbuf = s.pbuf ∧ SameOut s t ∧ SameControl s t ∧ SameStreams s t ∧
    t.rxPop = s.rxPop ∧ t.tx = s.tx ∧ t.txTaken = s.txTaken ∧ SameAccess s t ∧ SameModel s t

/-- The named stops of the sequencer (R147, U9; assumption log 13, 14): in phase 4 a pop of an empty RXQ, which the
spec leaves undefined, and an index that names no slot of `OUT` or no byte of `PBUF`. -/
def Obligations.InternalStopsAreNamed : Prop :=
  ∀ (ready : Bool) (s : State),
    (s.phase = .dRead ∧ s.index < s.len.toNat ∨ s.phase = .dCks ∨ s.phase = .dEnd → s.rxq = [] →
      phaseStep ready s = .refused .rxPopOnEmpty) ∧
    (s.phase = .eBuild → s.index < s.itemCount → 40 ≤ s.index → phaseStep ready s = .fault .noSuchSlot) ∧
    (s.phase = .ePay → 80 ≤ s.index → phaseStep ready s = .fault .noSuchBufferByte) ∧
    (s.phase = .dRead → s.index < s.len.toNat → 80 ≤ s.index → s.rxq ≠ [] →
      phaseStep ready s = .fault .noSuchBufferByte) ∧
    (s.phase = .dApply → s.index < s.itemCount → 40 ≤ s.index → phaseStep ready s = .fault .noSuchBufferByte)

/-- `TIMEOUT` = 0xFFFF disables the timeout (R282): no step answers TIMEOUT_ERROR. -/
def Obligations.MaximalTimeoutNeverFires : Prop :=
  ∀ s t : State, s.timeout = 0xFFFF → step s = .next t → t.resp ≠ some .timeoutError

/-- The status codes (R240), and `resp_status` and `resp_valid` show them (R224). -/
def Obligations.StatusCodesAsTabulated : Prop :=
  Status.ok.code = 0 ∧ Status.noData.code = 1 ∧ Status.serialBuffError.code = 2 ∧ Status.payloadError.code = 3 ∧
  Status.timeoutError.code = 4 ∧ Status.checksumError.code = 5 ∧ Status.endByteError.code = 6 ∧
  Status.encodeLengthError.code = 7 ∧
  ∀ (s : State) (status : Status), s.resp = some status → s.respValidPort = true ∧ s.respStatusPort = status.code

/-! ### The checksum engine -/

/-- SUM2C is the two's complement of the sum of the bytes modulo 256 (R207). -/
def Obligations.SumChecksumIsNegatedSum : Prop :=
  ∀ p : List Byte, (checksum .sum2c p).toNat = (256 - (p.map BitVec.toNat).sum % 256) % 256

/-- CRC8's update is the table look-up of `acc XOR b`, and eight shift steps each of which shifts right and, where the
bit shifted out is 1, adds the polynomial 0x8C (R205). -/
def Obligations.CrcUpdateIsReflectedShift : Prop :=
  (∀ acc b : Byte, cksUpdate .crc8 acc b = cksUpdate .crc8 0x00 (acc ^^^ b)) ∧
  (∀ c : Byte, (crcShift c).toNat =
    if c.toNat % 2 = 1 then (c.toNat / 2) ^^^ 0x8C else c.toNat / 2) ∧
  (∀ acc b : Byte, cksUpdate .crc8 acc b =
    crcShift (crcShift (crcShift (crcShift (crcShift (crcShift (crcShift (crcShift (acc ^^^ b)))))))))

/-- A change of exactly one bit of the payload changes the checksum, under both algorithms (R210 (b)). -/
def Obligations.SingleBitFlipIsDetected : Prop :=
  ∀ (alg : CksAlg) (p q : List Byte) (b : Byte) (j : Nat), j < 8 →
    checksum alg (p ++ (b ^^^ (1#8 <<< j)) :: q) ≠ checksum alg (p ++ b :: q)

/-- The residues (R210 (c)). -/
def Obligations.ChecksumResidueIsZero : Prop :=
  (∀ p : List Byte, ((p.map BitVec.toNat).sum + (checksum .sum2c p).toNat) % 256 = 0) ∧
  (∀ p : List Byte, checksum .crc8 (p ++ [checksum .crc8 p]) = 0x00)

/-- Leading zero bytes do not change the checksum, under both algorithms (R210 (e)). -/
def Obligations.LeadingZerosDoNotCount : Prop :=
  ∀ (alg : CksAlg) (n : Nat) (p : List Byte), checksum alg (List.replicate n 0x00 ++ p) = checksum alg p

/-- APPLY as a function (R181, R182, R183): after a payload of pairs each slot holds the value of the last pair that
names it, and a slot no pair names keeps its value. -/
def Obligations.LastPairForAnIdWins : Prop :=
  ∀ (items : List Item) (store : Vector Byte 40) (a : Nat), a < 40 →
    (applyPayload (payloadBytes items) store)[a]? =
      match items.reverse.find? (fun p => p.id.toNat == a) with
      | some p => some p.value
      | none => store[a]?

/-! ### Reset -/

/-- What reset leaves, where the spec gives a value (R39, R270): the state after reset and after any reset step. That TXQ
stays, and that arrivals and a tick still act in a reset step, is the model's choice (assumption log 7); that a
host-side `TIMEOUT` is reset above 10 is read from R9 and U12 (assumption log 20). -/
def Obligations.ResetLeavesTheSpecifiedValues : Prop :=
  (∀ s : State, s.lines.rst = true → ∃ t, step s = .next t ∧
      t.phase = .idle ∧ t.lastCks = 0x00 ∧ (s.build.side = .peripheral → t.timeout = 10) ∧
      (s.build.side = .host → 10 < t.timeout.toNat) ∧
      t.busyPort = false ∧ t.cmdReadyPort = true ∧ t.respValidPort = false ∧ t.txValidPort = false ∧
      t.rxPopPort = false ∧ t.appErrPort = false ∧
      t.rxq = s.rxq ++ s.lines.rxBytes ∧ t.txq = s.txq ∧ t.now = (if s.lines.tick then s.now + 1 else s.now) ∧
      t.build = s.build) ∧
    (State.reset.phase = .idle ∧ State.reset.lastCks = 0x00 ∧
      (State.reset.build.side = .peripheral → State.reset.timeout = 10) ∧
      (State.reset.build.side = .host → 10 < State.reset.timeout.toNat) ∧
      State.reset.busyPort = false ∧ State.reset.cmdReadyPort = true ∧ State.reset.respValidPort = false ∧
      State.reset.txValidPort = false ∧ State.reset.rxPopPort = false ∧ State.reset.appErrPort = false)

/-! ### Whole-machine rules: every step, every state -/

/-- The invariant holds at reset. -/
def Obligations.ResetMeetsInvariant : Prop := State.reset.Inv

/-- Every step keeps the invariant: lengths and counters stay in range, phase 4 finds its bytes, the checksum registers
belong to the buffered payload, and a waiting byte stays stable. -/
def Obligations.StepKeepsInvariant : Prop :=
  ∀ s t : State, s.Inv → step s = .next t → t.Inv

/-- From every state that meets the invariant a step answers a next state, under any input lines: no fault, no refusal
(R147). That `cmd_op` = 0b11, which R223 advises a model to refuse, runs too is the model's choice (assumption log 8). -/
def Obligations.NoStopUnderInvariant : Prop :=
  ∀ s : State, s.Inv → ∃ t, step s = .next t

/-- `IN` is written in no other phase than `D_APPLY` (R152, R22). -/
def Obligations.OnlyApplyWritesIn : Prop :=
  ∀ (s t : State) (a : Nat), s.lines.rst = false → step s = .next t → t.readIn a ≠ s.readIn a →
    s.phase = .dApply ∧ ∃ id v, s.pbuf[2 * s.index]? = some id ∧ s.pbuf[2 * s.index + 1]? = some v ∧
      id.toNat = a ∧ t.readIn a = some v

/-- `OUT` is written by OUTW only (R21). -/
def Obligations.OnlyOutwWritesOut : Prop :=
  ∀ (s t : State) (a : Nat), s.lines.rst = false → step s = .next t → t.readOut a ≠ s.readOut a →
    s.lines.appEn = true ∧ ∃ addr v, decodeStore s.lines.storeWord = .outw addr v ∧ addr.toNat = a ∧ t.readOut a = some v

/-- `TIMEOUT` is written by SET_TIMEOUT only, and so never while a command is in progress (R23, R226). -/
def Obligations.OnlySetTimeoutWritesTimeout : Prop :=
  ∀ s t : State, s.lines.rst = false → step s = .next t → t.timeout ≠ s.timeout →
    s.phase = .idle ∧ s.lines.cmdValid = true ∧ decodeCommand s.lines.commandWord = .setTimeout t.timeout ∧
    t.resp = some .ok

/-- `LASTCKS` is written at exactly two points: payload built, payload read (R24). -/
def Obligations.LastCksWrittenAtTwoPoints : Prop :=
  ∀ s t : State, s.lines.rst = false → step s = .next t → t.lastCks ≠ s.lastCks →
    (s.phase = .eBuild ∧ s.itemCount ≤ s.index ∨ s.phase = .dRead ∧ s.len.toNat ≤ s.index) ∧
    t.lastCks = cksFinal s.build.cksAlg s.acc

/-- RXQ is a queue (R33): arrivals join its tail, at most one byte leaves its head, and only a DECODE phase pops.
That bytes arrive in a reset step too is the model's choice (assumption log 7), and so is that a cycle's arrivals come
before the sequencer's step in it (assumption log 1). -/
def Obligations.ReceiveQueueIsFifo : Prop :=
  ∀ s t : State, step s = .next t →
    t.rxq = s.rxq ++ s.lines.rxBytes ∧ t.rxPop = false ∨
    (∃ b, b :: t.rxq = s.rxq ++ s.lines.rxBytes) ∧ t.rxPop = true ∧
      (s.phase = .dSync ∨ s.phase = .dLen ∨ s.phase = .dRead ∨ s.phase = .dCks ∨ s.phase = .dEnd)

/-- TXQ only grows, by the byte presented and taken, and only in a transmit phase of ENCODE (R34). That
TXQ stays in a reset step too is the model's choice (assumption log 7): R271 says that bytes already pushed stay sent,
R34 calls TXQ the record since reset. -/
def Obligations.TransmitRecordOnlyGrows : Prop :=
  ∀ s t : State, step s = .next t →
    t.txq = s.txq ∧ t.txTaken = false ∨
    ∃ b, t.txq = s.txq ++ [b] ∧ t.txTaken = true ∧ t.tx = some b ∧ s.presentedByte = some b ∧ s.lines.txReady = true

/-- A presented byte that is not taken stays presented, unchanged, until the stream takes it (R34). With `tx_ready` held
at 0 for ever an accepted ENCODE never responds, `busy` stays 1 and nothing is transmitted (R130, R284). -/
def Obligations.StalledByteStaysPresented : Prop :=
  (∀ s t : State, s.Inv → s.txStalled = true → s.lines.rst = false → step s = .next t →
    t.tx = s.tx ∧
    (s.lines.txReady = false → t.phase = s.phase ∧ t.txq = s.txq ∧ t.txStalled = true) ∧
    (s.lines.txReady = true → ∃ b, s.tx = some b ∧ t.txq = s.txq ++ [b])) ∧
  (∀ (s : State) (count : BitVec 16), s.accepts (.encode count) → count.toNat ≤ 40 →
    s.scriptAll Inputs.noReset → s.scriptAll (fun i => i.txReady = false) →
    ∀ k, 0 < k → ∃ t, run k s = .next t ∧
      t.resp = none ∧ t.busyPort = true ∧ t.cmdReadyPort = false ∧ t.txq = s.txq)

/-- A response and `busy` exclude each other after a step, and a response comes only from a command in progress or
accepted in the step (R220, R224). -/
def Obligations.ResponseLeavesTheBlockIdle : Prop :=
  ∀ (s t : State) (status : Status), step s = .next t → t.resp = some status →
    t.phase = .idle ∧ (s.phase ≠ .idle ∨ s.lines.cmdValid = true)

/-- The contents of `IN` never reach the line, the status or the control registers: two states that differ in `IN` only
step alike but for `IN` and the value an INR shows (R22). -/
def Obligations.InContentsStayInside : Prop :=
  ∀ (s t u : State) (v : Vector Byte 40), step s = .next t → step { s with inStore := v } = .next u →
    u.txq = t.txq ∧ u.rxq = t.rxq ∧ u.resp = t.resp ∧ u.phase = t.phase ∧ u.lastCks = t.lastCks ∧ u.timeout = t.timeout ∧
    u.tx = t.tx ∧ u.appErr = t.appErr ∧ SameOut t u ∧ SameInternal t u

/-! ### Whole operations: every run, from acceptance to response -/

/-- ENCODE completes (R129): when, without reset, the stream takes every byte, the sequencer moves in every cycle and no
OUTW interferes, the response is OK and exactly the frame of the first `count` slots was transmitted. The environment
after the script's end is the lines `State.rest` (assumption log 2), which keep to the same conditions. -/
def Obligations.EncodeTransmitsItsFrame : Prop :=
  ∀ (s : State) (count : BitVec 16), s.accepts (.encode count) → count.toNat ≤ 40 →
    s.scriptAll Inputs.attentive → s.scriptAll Inputs.leavesOut →
    ∃ k t, s.respondsAt k t .ok ∧
      t.txq = s.txq ++ encodeFrame s.build.cksAlg (s.outStore.toList.take count.toNat) ∧
      t.lastCks = checksum s.build.cksAlg (payloadBytes (denseItems 0 (s.outStore.toList.take count.toNat))) ∧
      SameOut s t ∧ SameIn s t ∧ t.timeout = s.timeout ∧ ∃ arrived, t.rxq = s.rxq ++ arrived

/-- Whatever the environment does but reset and OUTW (stalls, arrivals, ticks, reads, any pace of the sequencer): if
ENCODE responds, it responds OK and has transmitted exactly its frame (R129, R34). -/
def Obligations.EncodeFrameUnderAnyEnvironment : Prop :=
  ∀ (s t : State) (count : BitVec 16) (k : Nat) (status : Status),
    s.accepts (.encode count) → count.toNat ≤ 40 → s.scriptAll Inputs.noReset → s.scriptAll Inputs.leavesOut →
    s.respondsAt k t status →
    status = .ok ∧ t.txq = s.txq ++ encodeFrame s.build.cksAlg (s.outStore.toList.take count.toNat)

/-- The race of R280: without reset and with OUTW at any time, the frame carries for each slot a value the slot held when
`E_BUILD` had come to it, so no later OUTW affects it, and its checksum matches its payload. -/
def Obligations.RacingWritesNeverBreakAFrame : Prop :=
  ∀ (s t : State) (count : BitVec 16) (k : Nat) (status : Status),
    s.accepts (.encode count) → count.toNat ≤ 40 → s.scriptAll Inputs.noReset → s.respondsAt k t status →
    status = .ok ∧ ∃ o : List Byte, o.length = count.toNat ∧ t.txq = s.txq ++ encodeFrame s.build.cksAlg o ∧
      ∀ m, m < count.toNat → ∃ j u, j < k ∧ run j s = .next u ∧ u.phase = .eBuild ∧ u.index = m ∧ u.readOut m = o[m]?

/-- DECODE is the function of R154 when no byte arrives and no time passes: its response, RXQ, `IN` and `LASTCKS` are
that function's, and where the function waits the machine waits for ever in the phase it names, with nothing changed.
The lines `State.rest` after the script's end (assumption log 2) keep to the same premise. -/
def Obligations.DecodeIsTheBufferedFunction : Prop :=
  ∀ s : State, s.accepts .decode → s.scriptAll Inputs.frozen →
    match decodeBuffered s.build.cksAlg s.rxq s.inStore with
    | .responds status q inStore cks =>
      ∃ k t, s.respondsAt k t status ∧ t.rxq = q ∧ t.inStore = inStore ∧ t.lastCks = cks.getD s.lastCks ∧
        t.timeout = s.timeout ∧ t.txq = s.txq
    | .waitsForLength =>
      ∃ k, ∀ j, k ≤ j → ∃ t, run j s = .next t ∧ t.phase = .dLen ∧ t.rxq = [] ∧ t.resp = none ∧ SameIn s t ∧ SameControl s t
    | .waitsForBody q =>
      ∃ k, ∀ j, k ≤ j → ∃ t, run j s = .next t ∧ t.phase = .dBody ∧ t.rxq = q ∧ t.resp = none ∧ SameIn s t ∧ SameControl s t

/-- A DECODE that does not respond OK leaves `IN` bit for bit unchanged, whatever arrives and however time passes
(R152, R189). -/
def Obligations.FailedDecodeLeavesIn : Prop :=
  ∀ (s t : State) (k : Nat) (status : Status), s.accepts .decode → s.scriptAll Inputs.noReset →
    s.respondsAt k t status → status ≠ .ok → SameIn s t

/-- The outcomes of DECODE (R140, R241 to R248): ENCODE_LENGTH_ERROR is none of them, nothing is transmitted, `TIMEOUT`
is unchanged, and `LASTCKS` is unchanged after NO_DATA, SERIAL_BUFF_ERROR, PAYLOAD_ERROR and TIMEOUT_ERROR. -/
def Obligations.DecodeOutcomes : Prop :=
  ∀ (s t : State) (k : Nat) (status : Status), s.accepts .decode → s.scriptAll Inputs.noReset →
    s.respondsAt k t status →
    status ≠ .encodeLengthError ∧ t.txq = s.txq ∧ t.timeout = s.timeout ∧
    (status = .noData ∨ status = .serialBuffError ∨ status = .payloadError ∨ status = .timeoutError →
      t.lastCks = s.lastCks)

/-- A wait in phase 2 or 3 ends (R155): with the awaited bytes missing and one tick a step, TIMEOUT_ERROR is the response
after `TIMEOUT` + 1 ticks and none comes before. That these are as many steps rests on the model's choice that a cycle
ticks before the sequencer moves in it (assumption log 1). `TIMEOUT` = 0xFFFF is `MaximalTimeoutNeverFires`. -/
def Obligations.WaitEndsAfterTimeout : Prop :=
  ∀ s : State, s.phase = .dLen ∧ s.rxq = [] ∨ s.phase = .dBody ∧ s.lenLegal ∧ s.rxq.length < s.len.toNat + 2 →
    s.t0 = s.now → s.timeout.toNat < 0xFFFF →
    s.scriptAll (fun i => i.rst = false ∧ i.rxBytes = [] ∧ i.tick = true ∧ i.seqRun = true) →
    ∃ t, s.respondsAt (s.timeout.toNat + 1) t .timeoutError ∧ t.rxq = s.rxq ∧ t.phase = .idle ∧ SameIn s t ∧ SameControl s t

/-- The round trip of R188: what one instance's ENCODE transmitted, without racing writes, being the whole RXQ when
another instance with the same `CKS_ALG` accepts a DECODE, decodes to OK and gives the same values in `IN` for the ids
below `count`. At the receiver time passes, bytes arrive and the sequencer moves as they will, without reset (R156 (a)):
RXQ then holds exactly the bytes that arrived; with a sequencer that moves in every cycle the response comes. -/
def Obligations.RoundTripBetweenPeers : Prop :=
  ∀ (a ta b : State) (count : BitVec 16) (k : Nat),
    a.accepts (.encode count) → count.toNat ≤ 40 → a.scriptAll Inputs.noReset → a.scriptAll Inputs.leavesOut →
    a.respondsAt k ta .ok →
    b.accepts .decode → b.scriptAll Inputs.noReset → b.build.cksAlg = a.build.cksAlg → ta.txq = a.txq ++ b.rxq →
    (∀ (kb : Nat) (tb : State) (status : Status), b.respondsAt kb tb status →
      status = .ok ∧ tb.rxq = arrivals kb b.script b.rest ∧
      ∀ m, tb.readIn m = if m < count.toNat then a.readOut m else b.readIn m) ∧
    (b.scriptAll (fun i => i.seqRun = true) → ∃ kb tb, b.respondsAt kb tb .ok)
end

