-- ==== Sys2Proof/Laws/Checksum.lean ====
section
/-! SUPPORT. Laws of the checksum engine (43_checksum.md). -/

namespace Sys2Proof.Machine

@[simp] theorem cksInit_eq_zero (alg : CksAlg) : cksInit alg = 0 := by cases alg <;> rfl

@[simp] theorem cksUpdate_sum2c (acc b : Byte) : cksUpdate .sum2c acc b = acc + b := rfl

@[simp] theorem cksFinal_sum2c (acc : Byte) : cksFinal .sum2c acc = 0 - acc := rfl

@[simp] theorem cksFinal_crc8 (acc : Byte) : cksFinal .crc8 acc = acc := by simp [cksFinal, crcXorOut]

@[simp] theorem cksAcc_nil (alg : CksAlg) : cksAcc alg [] = cksInit alg := rfl

/-- The accumulator takes bytes one by one. -/
theorem cksAcc_append_singleton (alg : CksAlg) (p : List Byte) (b : Byte) :
    cksAcc alg (p ++ [b]) = cksUpdate alg (cksAcc alg p) b := by
  simp [cksAcc]

theorem cksAcc_append (alg : CksAlg) (p q : List Byte) :
    cksAcc alg (p ++ q) = q.foldl (cksUpdate alg) (cksAcc alg p) := by
  simp [cksAcc]

/-- A shift can be undone: bit 7 of the result is the bit that was tested. -/
theorem crcShift_injective : Function.Injective crcShift := by
  intro a b
  revert a b
  have h : ∀ c : Byte, (if (crcShift c).getLsbD 7 then (((crcShift c) ^^^ crcPoly) <<< 1) ||| 1 else (crcShift c) <<< 1) = c := by
    decide
  intro a b hab
  rw [← h a, ← h b, hab]

theorem crcShifts_injective (n : Nat) : Function.Injective (crcShifts n) := by
  induction n with
  | zero => intro a b h; exact h
  | succ n ih => intro a b h; exact crcShift_injective (ih h)

theorem crcShifts_zero (n : Nat) : crcShifts n 0 = 0 := by
  induction n with
  | zero => rfl
  | succ n ih => rw [crcShifts, show crcShift 0 = 0 from by decide, ih]

/-- Different accumulators stay different under the same byte. -/
theorem cksUpdate_injective_acc (alg : CksAlg) (b : Byte) : Function.Injective (cksUpdate alg · b) := by
  cases alg with
  | sum2c => intro x y h; simpa using h
  | crc8 => intro x y h; simpa using crcShifts_injective 8 h

/-- Different bytes give different accumulators. -/
theorem cksUpdate_injective_byte (alg : CksAlg) (acc : Byte) : Function.Injective (cksUpdate alg acc) := by
  cases alg with
  | sum2c => intro x y h; simpa using h
  | crc8 => intro x y h; simpa using crcShifts_injective 8 h

theorem foldl_cksUpdate_injective (alg : CksAlg) (p : List Byte) :
    Function.Injective fun acc => p.foldl (cksUpdate alg) acc := by
  induction p with
  | nil => intro x y h; exact h
  | cons b p ih => intro x y h; exact cksUpdate_injective_acc alg b (ih h)

theorem cksFinal_injective (alg : CksAlg) : Function.Injective (cksFinal alg) := by
  cases alg with
  | sum2c => intro x y h; simpa using h
  | crc8 => intro x y h; simpa using h

end Sys2Proof.Machine
end

