-- ==== Sys2Proof/Laws/Codec.lean ====
section
/-! SUPPORT. Laws of the decoder and the encoder (30_encoding.md). -/

namespace Sys2Proof

open Sys2Proof.Machine

@[simp] theorem length_payloadBytes (items : List Item) : (payloadBytes items).length = 2 * items.length := by
  induction items with
  | nil => rfl
  | cons i is ih => simp [payloadBytes, ih]; omega

theorem payloadBytes_append (a b : List Item) : payloadBytes (a ++ b) = payloadBytes a ++ payloadBytes b := by
  induction a with
  | nil => rfl
  | cons i is ih => simp [payloadBytes, ih]

@[simp] theorem length_frameBytes (items : List Item) (c : Byte) : (frameBytes items c).length = 2 * items.length + 4 := by
  simp [frameBytes]

/-- Reading back what was written: the pairs, and the bytes after them. -/
theorem takeItems_payloadBytes (items : List Item) (rest : List Byte) :
    takeItems items.length (payloadBytes items ++ rest) = some (items, rest) := by
  induction items with
  | nil => rfl
  | cons i is ih => simp [payloadBytes, takeItems, ih]

/-- What `takeItems` reads is what stands there. -/
theorem eq_payloadBytes_of_takeItems {n : Nat} {bytes rest : List Byte} {items : List Item}
    (h : takeItems n bytes = some (items, rest)) : items.length = n ∧ bytes = payloadBytes items ++ rest := by
  induction n generalizing bytes items with
  | zero => simp [takeItems] at h; obtain ⟨rfl, rfl⟩ := h; simp [payloadBytes]
  | succ n ih =>
    match bytes, h with
    | id :: v :: bytes, h =>
      simp only [takeItems] at h
      split at h
      · rename_i is r hr
        simp only [Option.some.injEq, Prod.mk.injEq] at h
        obtain ⟨rfl, rfl⟩ := h
        obtain ⟨hl, rfl⟩ := ih hr
        simp [payloadBytes, hl]
      · cases h

theorem legalLength_iff (b : Byte) : legalLength b = true ↔ b.toNat % 2 = 0 ∧ b.toNat ≤ 80 := by
  have h : b.getLsbD 0 = decide (b.toNat % 2 = 1) := by
    simp [BitVec.getLsbD, Nat.testBit_zero]
  simp only [legalLength, h, Bool.and_eq_true, Bool.not_eq_true', decide_eq_true_eq, decide_eq_false_iff_not,
    show lenMax = 80 from rfl]
  omega

theorem legalLength_ofNat {n : Nat} (h : n ≤ 40) : legalLength (BitVec.ofNat 8 (2 * n)) = true := by
  rw [legalLength_iff]; simp; omega

theorem not_odd_of_legal {b : Byte} (h : legalLength b = true) : b.getLsbD 0 = false := by
  simp [legalLength] at h; exact h.1

/-- A frame of at most 40 pairs reads back, whatever follows it. -/
theorem decodeFrame_frameBytes {items : List Item} (h : items.length ≤ 40) (c : Byte) (rest : List Byte) :
    decodeFrame (frameBytes items c ++ rest) = .ok (.frame items c, rest) := by
  have hl := legalLength_ofNat h
  have hn : (BitVec.ofNat 8 (2 * items.length)).toNat / 2 = items.length := by simp; omega
  simp only [frameBytes, List.cons_append, List.append_assoc, decodeFrame, hn, not_odd_of_legal hl, hl,
    takeItems_payloadBytes]
  simp

/-- Whatever reads as a frame is a frame's bytes and the rest (R90 to R92). -/
theorem frameBytes_of_decodeFrame {bytes rest : List Byte} {i : Instr} (h : decodeFrame bytes = .ok (i, rest)) :
    ∃ items c, i = .frame items c ∧ items.length ≤ 40 ∧ bytes = frameBytes items c ++ rest := by
  match bytes, h with
  | st :: l :: body, h =>
    simp only [decodeFrame] at h
    split at h
    · cases h
    split at h
    · cases h
    split at h
    · cases h
    rename_i hs _ hl
    split at h
    · rename_i items c e r ht
      split at h
      · cases h
      rename_i he
      simp only [Except.ok.injEq, Prod.mk.injEq] at h
      obtain ⟨rfl, rfl⟩ := h
      obtain ⟨hlen, rfl⟩ := eq_payloadBytes_of_takeItems ht
      have hlegal : legalLength l = true := by simpa using hl
      rw [legalLength_iff] at hlegal
      have hl2 : BitVec.ofNat 8 (2 * items.length) = l := by
        apply BitVec.eq_of_toNat_eq; simp; omega
      refine ⟨items, c, rfl, by omega, ?_⟩
      simp only [ne_eq, Decidable.not_not] at hs he
      simp [frameBytes, hl2, hs, he]
    · cases h

@[simp] theorem decode_command (w : BitVec 18) : decode (.command w) = .ok (decodeCommand w) := rfl

@[simp] theorem decode_store (w : BitVec 16) : decode (.store w) = .ok (decodeStore w) := rfl

/-! ### The fields of command and store words -/

/-- A command word as a number: `cmd_op` above `cmd_arg` (R99). -/
theorem toNat_commandWord (op : BitVec 2) (arg : BitVec 16) :
    (commandWord op arg).toNat = op.toNat * 65536 + arg.toNat := by
  rw [commandWord, BitVec.toNat_append, ← Nat.shiftLeft_add_eq_or_of_lt arg.isLt, Nat.shiftLeft_eq]

/-- A store word as a number (R100). -/
theorem toNat_storeWord (sel we : Bool) (a : BitVec 6) (v : Byte) :
    (storeWord sel we a v).toNat = sel.toNat * 32768 + we.toNat * 16384 + a.toNat * 256 + v.toNat := by
  rw [storeWord, BitVec.toNat_append, ← Nat.shiftLeft_add_eq_or_of_lt v.isLt, Nat.shiftLeft_eq,
    BitVec.toNat_append, ← Nat.shiftLeft_add_eq_or_of_lt a.isLt, Nat.shiftLeft_eq,
    BitVec.toNat_append, ← Nat.shiftLeft_add_eq_or_of_lt (BitVec.ofBool we).isLt, Nat.shiftLeft_eq]
  simp only [BitVec.toNat_ofBool]
  omega

/-- A bit field as a number. -/
theorem toNat_field {n : Nat} (w : BitVec n) (i k : Nat) : (w.extractLsb' i k).toNat = w.toNat / 2 ^ i % 2 ^ k := by
  simp [BitVec.extractLsb'_toNat, Nat.shiftRight_eq_div_pow]

/-- Reading back the fields of a command word. -/
theorem field_commandWord (op : BitVec 2) (arg : BitVec 16) :
    (commandWord op arg).extractLsb' 16 2 = op ∧ (commandWord op arg).extractLsb' 0 16 = arg := by
  constructor <;> apply BitVec.eq_of_toNat_eq <;> rw [toNat_field, toNat_commandWord] <;> omega

/-- A command word is put together from its fields. -/
theorem commandWord_fields (w : BitVec 18) : commandWord (w.extractLsb' 16 2) (w.extractLsb' 0 16) = w := by
  apply BitVec.eq_of_toNat_eq
  rw [toNat_commandWord, toNat_field, toNat_field]
  have := w.isLt
  omega

/-- Reading back the fields of a store word. -/
theorem field_storeWord (sel we : Bool) (a : BitVec 6) (v : Byte) :
    (storeWord sel we a v).extractLsb' 14 2 = BitVec.ofBool sel ++ BitVec.ofBool we ∧
    (storeWord sel we a v).extractLsb' 8 6 = a ∧ (storeWord sel we a v).extractLsb' 0 8 = v := by
  have ha := a.isLt
  have hv := v.isLt
  have hs := sel.toNat_le
  have hw := we.toNat_le
  refine ⟨?_, ?_, ?_⟩ <;> apply BitVec.eq_of_toNat_eq <;> rw [toNat_field, toNat_storeWord]
  · rw [BitVec.toNat_append, ← Nat.shiftLeft_add_eq_or_of_lt (BitVec.ofBool we).isLt, Nat.shiftLeft_eq]
    simp only [BitVec.toNat_ofBool]
    omega
  · omega
  · omega

/-- A store word is put together from its fields. -/
theorem storeWord_fields (w : BitVec 16) :
    storeWord (w.getLsbD 15) (w.getLsbD 14) (w.extractLsb' 8 6) (w.extractLsb' 0 8) = w := by
  apply BitVec.eq_of_toNat_eq
  rw [toNat_storeWord, toNat_field, toNat_field]
  have hb : ∀ i, (w.getLsbD i).toNat = w.toNat / 2 ^ i % 2 := by
    intro i
    rw [BitVec.getLsbD, Nat.toNat_testBit]
  have := w.isLt
  rw [hb, hb]
  omega

/-- The two top bits of a command word, by its mask. -/
theorem field_of_mask18 (w : BitVec 18) (k : BitVec 2) (h : w &&& 0x30000#18 = k.setWidth 18 <<< 16) :
    w.extractLsb' 16 2 = k := by
  ext i hi
  have hb := congrArg (fun x : BitVec 18 => x.getLsbD (16 + i)) h
  rw [BitVec.getElem_extractLsb']
  have : i = 0 ∨ i = 1 := by omega
  rcases this with rfl | rfl
  · simpa using hb
  · simpa using hb

/-- The two top bits of a store word, by its mask. -/
theorem field_of_mask16 (w : BitVec 16) (k : BitVec 2) (h : w &&& 0xC000#16 = k.setWidth 16 <<< 14) : w.extractLsb' 14 2 = k := by
  ext i hi
  have hb := congrArg (fun x : BitVec 16 => x.getLsbD (14 + i)) h
  rw [BitVec.getElem_extractLsb']
  have : i = 0 ∨ i = 1 := by omega
  rcases this with rfl | rfl
  · simpa using hb
  · simpa using hb

/-! ### Cases -/

/-- A command word is one of the four commands. -/
theorem decodeCommand_cases (w : BitVec 18) :
    decodeCommand w = .decode ∨ (∃ c, decodeCommand w = .encode c) ∨ (∃ d, decodeCommand w = .setTimeout d) ∨
      decodeCommand w = .cmdReserved := by
  unfold decodeCommand
  split
  · exact .inl rfl
  split
  · exact .inr (.inl ⟨_, rfl⟩)
  split
  · exact .inr (.inr (.inl ⟨_, rfl⟩))
  · exact .inr (.inr (.inr rfl))

/-- A store word is one of the four accesses. -/
theorem decodeStore_cases (w : BitVec 16) :
    (∃ a v, decodeStore w = .outw a v) ∨ (∃ a, decodeStore w = .outr a) ∨ (∃ a, decodeStore w = .inr a) ∨
      decodeStore w = .storeReserved := by
  unfold decodeStore
  split
  · exact .inl ⟨_, _, rfl⟩
  split
  · exact .inr (.inl ⟨_, rfl⟩)
  split
  · exact .inr (.inr (.inl ⟨_, rfl⟩))
  · exact .inr (.inr (.inr rfl))

/-- Wire bytes decode exactly to the frame they are. -/
theorem decode_wire_iff (bytes : List Byte) (i : Instr) :
    decode (.wire bytes) = .ok i ↔ ∃ items c, i = .frame items c ∧ items.length ≤ 40 ∧ bytes = frameBytes items c := by
  constructor
  · intro h
    simp only [decode] at h
    split at h
    · rename_i j hj
      obtain ⟨items, c, rfl, hl, rfl⟩ := frameBytes_of_decodeFrame hj
      simp only [Except.ok.injEq] at h
      exact ⟨items, c, h.symm, hl, by simp⟩
    · cases h
    · cases h
  · rintro ⟨items, c, rfl, hl, rfl⟩
    have := decodeFrame_frameBytes hl c []
    simp only [List.append_nil] at this
    simp [decode, this]

end Sys2Proof
end

