-- ==== Sys2Proof/Laws/State.lean ====
section
/-! SUPPORT. One lemma per field per named update of State, so that no later proof unfolds a record update. -/

namespace Sys2Proof.Machine.State

variable (s : State)

/-! ### raise -/

@[simp] theorem outStore_raise (st : Status) : (s.raise st).outStore = s.outStore := rfl
@[simp] theorem inStore_raise (st : Status) : (s.raise st).inStore = s.inStore := rfl
@[simp] theorem timeout_raise (st : Status) : (s.raise st).timeout = s.timeout := rfl
@[simp] theorem lastCks_raise (st : Status) : (s.raise st).lastCks = s.lastCks := rfl
@[simp] theorem acc_raise (st : Status) : (s.raise st).acc = s.acc := rfl
@[simp] theorem phase_raise (st : Status) : (s.raise st).phase = .idle := rfl
@[simp] theorem t0_raise (st : Status) : (s.raise st).t0 = s.t0 := rfl
@[simp] theorem len_raise (st : Status) : (s.raise st).len = s.len := rfl
@[simp] theorem cnt_raise (st : Status) : (s.raise st).cnt = s.cnt := rfl
@[simp] theorem pbuf_raise (st : Status) : (s.raise st).pbuf = s.pbuf := rfl
@[simp] theorem rxq_raise (st : Status) : (s.raise st).rxq = s.rxq := rfl
@[simp] theorem txq_raise (st : Status) : (s.raise st).txq = s.txq := rfl
@[simp] theorem now_raise (st : Status) : (s.raise st).now = s.now := rfl
@[simp] theorem resp_raise (st : Status) : (s.raise st).resp = some st := rfl
@[simp] theorem appErr_raise (st : Status) : (s.raise st).appErr = s.appErr := rfl
@[simp] theorem appRdata_raise (st : Status) : (s.raise st).appRdata = s.appRdata := rfl
@[simp] theorem rxPop_raise (st : Status) : (s.raise st).rxPop = s.rxPop := rfl
@[simp] theorem tx_raise (st : Status) : (s.raise st).tx = s.tx := rfl
@[simp] theorem txTaken_raise (st : Status) : (s.raise st).txTaken = s.txTaken := rfl
@[simp] theorem script_raise (st : Status) : (s.raise st).script = s.script := rfl
@[simp] theorem rest_raise (st : Status) : (s.raise st).rest = s.rest := rfl
@[simp] theorem build_raise (st : Status) : (s.raise st).build = s.build := rfl
@[simp] theorem draws_raise (st : Status) : (s.raise st).draws = s.draws := rfl

/-! ### deliver -/

@[simp] theorem outStore_deliver (bytes : List Byte) : (s.deliver bytes).outStore = s.outStore := rfl
@[simp] theorem inStore_deliver (bytes : List Byte) : (s.deliver bytes).inStore = s.inStore := rfl
@[simp] theorem timeout_deliver (bytes : List Byte) : (s.deliver bytes).timeout = s.timeout := rfl
@[simp] theorem lastCks_deliver (bytes : List Byte) : (s.deliver bytes).lastCks = s.lastCks := rfl
@[simp] theorem acc_deliver (bytes : List Byte) : (s.deliver bytes).acc = s.acc := rfl
@[simp] theorem phase_deliver (bytes : List Byte) : (s.deliver bytes).phase = s.phase := rfl
@[simp] theorem t0_deliver (bytes : List Byte) : (s.deliver bytes).t0 = s.t0 := rfl
@[simp] theorem len_deliver (bytes : List Byte) : (s.deliver bytes).len = s.len := rfl
@[simp] theorem cnt_deliver (bytes : List Byte) : (s.deliver bytes).cnt = s.cnt := rfl
@[simp] theorem pbuf_deliver (bytes : List Byte) : (s.deliver bytes).pbuf = s.pbuf := rfl
@[simp] theorem rxq_deliver (bytes : List Byte) : (s.deliver bytes).rxq = s.rxq ++ bytes := rfl
@[simp] theorem txq_deliver (bytes : List Byte) : (s.deliver bytes).txq = s.txq := rfl
@[simp] theorem now_deliver (bytes : List Byte) : (s.deliver bytes).now = s.now := rfl
@[simp] theorem resp_deliver (bytes : List Byte) : (s.deliver bytes).resp = s.resp := rfl
@[simp] theorem appErr_deliver (bytes : List Byte) : (s.deliver bytes).appErr = s.appErr := rfl
@[simp] theorem appRdata_deliver (bytes : List Byte) : (s.deliver bytes).appRdata = s.appRdata := rfl
@[simp] theorem rxPop_deliver (bytes : List Byte) : (s.deliver bytes).rxPop = s.rxPop := rfl
@[simp] theorem tx_deliver (bytes : List Byte) : (s.deliver bytes).tx = s.tx := rfl
@[simp] theorem txTaken_deliver (bytes : List Byte) : (s.deliver bytes).txTaken = s.txTaken := rfl
@[simp] theorem script_deliver (bytes : List Byte) : (s.deliver bytes).script = s.script := rfl
@[simp] theorem rest_deliver (bytes : List Byte) : (s.deliver bytes).rest = s.rest := rfl
@[simp] theorem build_deliver (bytes : List Byte) : (s.deliver bytes).build = s.build := rfl
@[simp] theorem draws_deliver (bytes : List Byte) : (s.deliver bytes).draws = s.draws := rfl

/-! ### armTimer -/

@[simp] theorem outStore_armTimer : (s.armTimer).outStore = s.outStore := rfl
@[simp] theorem inStore_armTimer : (s.armTimer).inStore = s.inStore := rfl
@[simp] theorem timeout_armTimer : (s.armTimer).timeout = s.timeout := rfl
@[simp] theorem lastCks_armTimer : (s.armTimer).lastCks = s.lastCks := rfl
@[simp] theorem acc_armTimer : (s.armTimer).acc = s.acc := rfl
@[simp] theorem phase_armTimer : (s.armTimer).phase = s.phase := rfl
@[simp] theorem t0_armTimer : (s.armTimer).t0 = s.now := rfl
@[simp] theorem len_armTimer : (s.armTimer).len = s.len := rfl
@[simp] theorem cnt_armTimer : (s.armTimer).cnt = s.cnt := rfl
@[simp] theorem pbuf_armTimer : (s.armTimer).pbuf = s.pbuf := rfl
@[simp] theorem rxq_armTimer : (s.armTimer).rxq = s.rxq := rfl
@[simp] theorem txq_armTimer : (s.armTimer).txq = s.txq := rfl
@[simp] theorem now_armTimer : (s.armTimer).now = s.now := rfl
@[simp] theorem resp_armTimer : (s.armTimer).resp = s.resp := rfl
@[simp] theorem appErr_armTimer : (s.armTimer).appErr = s.appErr := rfl
@[simp] theorem appRdata_armTimer : (s.armTimer).appRdata = s.appRdata := rfl
@[simp] theorem rxPop_armTimer : (s.armTimer).rxPop = s.rxPop := rfl
@[simp] theorem tx_armTimer : (s.armTimer).tx = s.tx := rfl
@[simp] theorem txTaken_armTimer : (s.armTimer).txTaken = s.txTaken := rfl
@[simp] theorem script_armTimer : (s.armTimer).script = s.script := rfl
@[simp] theorem rest_armTimer : (s.armTimer).rest = s.rest := rfl
@[simp] theorem build_armTimer : (s.armTimer).build = s.build := rfl
@[simp] theorem draws_armTimer : (s.armTimer).draws = s.draws := rfl

/-! ### writeOut -/

@[simp] theorem outStore_writeOut (i : Nat) (v : Byte) : (s.writeOut i v).outStore = s.outStore.setIfInBounds i v := rfl
@[simp] theorem inStore_writeOut (i : Nat) (v : Byte) : (s.writeOut i v).inStore = s.inStore := rfl
@[simp] theorem timeout_writeOut (i : Nat) (v : Byte) : (s.writeOut i v).timeout = s.timeout := rfl
@[simp] theorem lastCks_writeOut (i : Nat) (v : Byte) : (s.writeOut i v).lastCks = s.lastCks := rfl
@[simp] theorem acc_writeOut (i : Nat) (v : Byte) : (s.writeOut i v).acc = s.acc := rfl
@[simp] theorem phase_writeOut (i : Nat) (v : Byte) : (s.writeOut i v).phase = s.phase := rfl
@[simp] theorem t0_writeOut (i : Nat) (v : Byte) : (s.writeOut i v).t0 = s.t0 := rfl
@[simp] theorem len_writeOut (i : Nat) (v : Byte) : (s.writeOut i v).len = s.len := rfl
@[simp] theorem cnt_writeOut (i : Nat) (v : Byte) : (s.writeOut i v).cnt = s.cnt := rfl
@[simp] theorem pbuf_writeOut (i : Nat) (v : Byte) : (s.writeOut i v).pbuf = s.pbuf := rfl
@[simp] theorem rxq_writeOut (i : Nat) (v : Byte) : (s.writeOut i v).rxq = s.rxq := rfl
@[simp] theorem txq_writeOut (i : Nat) (v : Byte) : (s.writeOut i v).txq = s.txq := rfl
@[simp] theorem now_writeOut (i : Nat) (v : Byte) : (s.writeOut i v).now = s.now := rfl
@[simp] theorem resp_writeOut (i : Nat) (v : Byte) : (s.writeOut i v).resp = s.resp := rfl
@[simp] theorem appErr_writeOut (i : Nat) (v : Byte) : (s.writeOut i v).appErr = s.appErr := rfl
@[simp] theorem appRdata_writeOut (i : Nat) (v : Byte) : (s.writeOut i v).appRdata = s.appRdata := rfl
@[simp] theorem rxPop_writeOut (i : Nat) (v : Byte) : (s.writeOut i v).rxPop = s.rxPop := rfl
@[simp] theorem tx_writeOut (i : Nat) (v : Byte) : (s.writeOut i v).tx = s.tx := rfl
@[simp] theorem txTaken_writeOut (i : Nat) (v : Byte) : (s.writeOut i v).txTaken = s.txTaken := rfl
@[simp] theorem script_writeOut (i : Nat) (v : Byte) : (s.writeOut i v).script = s.script := rfl
@[simp] theorem rest_writeOut (i : Nat) (v : Byte) : (s.writeOut i v).rest = s.rest := rfl
@[simp] theorem build_writeOut (i : Nat) (v : Byte) : (s.writeOut i v).build = s.build := rfl
@[simp] theorem draws_writeOut (i : Nat) (v : Byte) : (s.writeOut i v).draws = s.draws := rfl

/-! ### writeIn -/

@[simp] theorem outStore_writeIn (i : Nat) (v : Byte) : (s.writeIn i v).outStore = s.outStore := rfl
@[simp] theorem inStore_writeIn (i : Nat) (v : Byte) : (s.writeIn i v).inStore = s.inStore.setIfInBounds i v := rfl
@[simp] theorem timeout_writeIn (i : Nat) (v : Byte) : (s.writeIn i v).timeout = s.timeout := rfl
@[simp] theorem lastCks_writeIn (i : Nat) (v : Byte) : (s.writeIn i v).lastCks = s.lastCks := rfl
@[simp] theorem acc_writeIn (i : Nat) (v : Byte) : (s.writeIn i v).acc = s.acc := rfl
@[simp] theorem phase_writeIn (i : Nat) (v : Byte) : (s.writeIn i v).phase = s.phase := rfl
@[simp] theorem t0_writeIn (i : Nat) (v : Byte) : (s.writeIn i v).t0 = s.t0 := rfl
@[simp] theorem len_writeIn (i : Nat) (v : Byte) : (s.writeIn i v).len = s.len := rfl
@[simp] theorem cnt_writeIn (i : Nat) (v : Byte) : (s.writeIn i v).cnt = s.cnt := rfl
@[simp] theorem pbuf_writeIn (i : Nat) (v : Byte) : (s.writeIn i v).pbuf = s.pbuf := rfl
@[simp] theorem rxq_writeIn (i : Nat) (v : Byte) : (s.writeIn i v).rxq = s.rxq := rfl
@[simp] theorem txq_writeIn (i : Nat) (v : Byte) : (s.writeIn i v).txq = s.txq := rfl
@[simp] theorem now_writeIn (i : Nat) (v : Byte) : (s.writeIn i v).now = s.now := rfl
@[simp] theorem resp_writeIn (i : Nat) (v : Byte) : (s.writeIn i v).resp = s.resp := rfl
@[simp] theorem appErr_writeIn (i : Nat) (v : Byte) : (s.writeIn i v).appErr = s.appErr := rfl
@[simp] theorem appRdata_writeIn (i : Nat) (v : Byte) : (s.writeIn i v).appRdata = s.appRdata := rfl
@[simp] theorem rxPop_writeIn (i : Nat) (v : Byte) : (s.writeIn i v).rxPop = s.rxPop := rfl
@[simp] theorem tx_writeIn (i : Nat) (v : Byte) : (s.writeIn i v).tx = s.tx := rfl
@[simp] theorem txTaken_writeIn (i : Nat) (v : Byte) : (s.writeIn i v).txTaken = s.txTaken := rfl
@[simp] theorem script_writeIn (i : Nat) (v : Byte) : (s.writeIn i v).script = s.script := rfl
@[simp] theorem rest_writeIn (i : Nat) (v : Byte) : (s.writeIn i v).rest = s.rest := rfl
@[simp] theorem build_writeIn (i : Nat) (v : Byte) : (s.writeIn i v).build = s.build := rfl
@[simp] theorem draws_writeIn (i : Nat) (v : Byte) : (s.writeIn i v).draws = s.draws := rfl

/-! ### writeBuf -/

@[simp] theorem outStore_writeBuf (i : Nat) (v : Byte) : (s.writeBuf i v).outStore = s.outStore := rfl
@[simp] theorem inStore_writeBuf (i : Nat) (v : Byte) : (s.writeBuf i v).inStore = s.inStore := rfl
@[simp] theorem timeout_writeBuf (i : Nat) (v : Byte) : (s.writeBuf i v).timeout = s.timeout := rfl
@[simp] theorem lastCks_writeBuf (i : Nat) (v : Byte) : (s.writeBuf i v).lastCks = s.lastCks := rfl
@[simp] theorem acc_writeBuf (i : Nat) (v : Byte) : (s.writeBuf i v).acc = s.acc := rfl
@[simp] theorem phase_writeBuf (i : Nat) (v : Byte) : (s.writeBuf i v).phase = s.phase := rfl
@[simp] theorem t0_writeBuf (i : Nat) (v : Byte) : (s.writeBuf i v).t0 = s.t0 := rfl
@[simp] theorem len_writeBuf (i : Nat) (v : Byte) : (s.writeBuf i v).len = s.len := rfl
@[simp] theorem cnt_writeBuf (i : Nat) (v : Byte) : (s.writeBuf i v).cnt = s.cnt := rfl
@[simp] theorem pbuf_writeBuf (i : Nat) (v : Byte) : (s.writeBuf i v).pbuf = s.pbuf.setIfInBounds i v := rfl
@[simp] theorem rxq_writeBuf (i : Nat) (v : Byte) : (s.writeBuf i v).rxq = s.rxq := rfl
@[simp] theorem txq_writeBuf (i : Nat) (v : Byte) : (s.writeBuf i v).txq = s.txq := rfl
@[simp] theorem now_writeBuf (i : Nat) (v : Byte) : (s.writeBuf i v).now = s.now := rfl
@[simp] theorem resp_writeBuf (i : Nat) (v : Byte) : (s.writeBuf i v).resp = s.resp := rfl
@[simp] theorem appErr_writeBuf (i : Nat) (v : Byte) : (s.writeBuf i v).appErr = s.appErr := rfl
@[simp] theorem appRdata_writeBuf (i : Nat) (v : Byte) : (s.writeBuf i v).appRdata = s.appRdata := rfl
@[simp] theorem rxPop_writeBuf (i : Nat) (v : Byte) : (s.writeBuf i v).rxPop = s.rxPop := rfl
@[simp] theorem tx_writeBuf (i : Nat) (v : Byte) : (s.writeBuf i v).tx = s.tx := rfl
@[simp] theorem txTaken_writeBuf (i : Nat) (v : Byte) : (s.writeBuf i v).txTaken = s.txTaken := rfl
@[simp] theorem script_writeBuf (i : Nat) (v : Byte) : (s.writeBuf i v).script = s.script := rfl
@[simp] theorem rest_writeBuf (i : Nat) (v : Byte) : (s.writeBuf i v).rest = s.rest := rfl
@[simp] theorem build_writeBuf (i : Nat) (v : Byte) : (s.writeBuf i v).build = s.build := rfl
@[simp] theorem draws_writeBuf (i : Nat) (v : Byte) : (s.writeBuf i v).draws = s.draws := rfl

/-! ### writeItem -/

@[simp] theorem outStore_writeItem (k : Nat) (item : Item) : (s.writeItem k item).outStore = s.outStore := rfl
@[simp] theorem inStore_writeItem (k : Nat) (item : Item) : (s.writeItem k item).inStore = s.inStore := rfl
@[simp] theorem timeout_writeItem (k : Nat) (item : Item) : (s.writeItem k item).timeout = s.timeout := rfl
@[simp] theorem lastCks_writeItem (k : Nat) (item : Item) : (s.writeItem k item).lastCks = s.lastCks := rfl
@[simp] theorem acc_writeItem (k : Nat) (item : Item) : (s.writeItem k item).acc = s.acc := rfl
@[simp] theorem phase_writeItem (k : Nat) (item : Item) : (s.writeItem k item).phase = s.phase := rfl
@[simp] theorem t0_writeItem (k : Nat) (item : Item) : (s.writeItem k item).t0 = s.t0 := rfl
@[simp] theorem len_writeItem (k : Nat) (item : Item) : (s.writeItem k item).len = s.len := rfl
@[simp] theorem cnt_writeItem (k : Nat) (item : Item) : (s.writeItem k item).cnt = s.cnt := rfl
@[simp] theorem pbuf_writeItem (k : Nat) (item : Item) : (s.writeItem k item).pbuf = (s.pbuf.setIfInBounds (2 * k) item.id).setIfInBounds (2 * k + 1) item.value := rfl
@[simp] theorem rxq_writeItem (k : Nat) (item : Item) : (s.writeItem k item).rxq = s.rxq := rfl
@[simp] theorem txq_writeItem (k : Nat) (item : Item) : (s.writeItem k item).txq = s.txq := rfl
@[simp] theorem now_writeItem (k : Nat) (item : Item) : (s.writeItem k item).now = s.now := rfl
@[simp] theorem resp_writeItem (k : Nat) (item : Item) : (s.writeItem k item).resp = s.resp := rfl
@[simp] theorem appErr_writeItem (k : Nat) (item : Item) : (s.writeItem k item).appErr = s.appErr := rfl
@[simp] theorem appRdata_writeItem (k : Nat) (item : Item) : (s.writeItem k item).appRdata = s.appRdata := rfl
@[simp] theorem rxPop_writeItem (k : Nat) (item : Item) : (s.writeItem k item).rxPop = s.rxPop := rfl
@[simp] theorem tx_writeItem (k : Nat) (item : Item) : (s.writeItem k item).tx = s.tx := rfl
@[simp] theorem txTaken_writeItem (k : Nat) (item : Item) : (s.writeItem k item).txTaken = s.txTaken := rfl
@[simp] theorem script_writeItem (k : Nat) (item : Item) : (s.writeItem k item).script = s.script := rfl
@[simp] theorem rest_writeItem (k : Nat) (item : Item) : (s.writeItem k item).rest = s.rest := rfl
@[simp] theorem build_writeItem (k : Nat) (item : Item) : (s.writeItem k item).build = s.build := rfl
@[simp] theorem draws_writeItem (k : Nat) (item : Item) : (s.writeItem k item).draws = s.draws := rfl

/-! ### startCks -/

@[simp] theorem outStore_startCks : (s.startCks).outStore = s.outStore := rfl
@[simp] theorem inStore_startCks : (s.startCks).inStore = s.inStore := rfl
@[simp] theorem timeout_startCks : (s.startCks).timeout = s.timeout := rfl
@[simp] theorem lastCks_startCks : (s.startCks).lastCks = s.lastCks := rfl
@[simp] theorem acc_startCks : (s.startCks).acc = cksInit s.build.cksAlg := rfl
@[simp] theorem phase_startCks : (s.startCks).phase = s.phase := rfl
@[simp] theorem t0_startCks : (s.startCks).t0 = s.t0 := rfl
@[simp] theorem len_startCks : (s.startCks).len = s.len := rfl
@[simp] theorem cnt_startCks : (s.startCks).cnt = s.cnt := rfl
@[simp] theorem pbuf_startCks : (s.startCks).pbuf = s.pbuf := rfl
@[simp] theorem rxq_startCks : (s.startCks).rxq = s.rxq := rfl
@[simp] theorem txq_startCks : (s.startCks).txq = s.txq := rfl
@[simp] theorem now_startCks : (s.startCks).now = s.now := rfl
@[simp] theorem resp_startCks : (s.startCks).resp = s.resp := rfl
@[simp] theorem appErr_startCks : (s.startCks).appErr = s.appErr := rfl
@[simp] theorem appRdata_startCks : (s.startCks).appRdata = s.appRdata := rfl
@[simp] theorem rxPop_startCks : (s.startCks).rxPop = s.rxPop := rfl
@[simp] theorem tx_startCks : (s.startCks).tx = s.tx := rfl
@[simp] theorem txTaken_startCks : (s.startCks).txTaken = s.txTaken := rfl
@[simp] theorem script_startCks : (s.startCks).script = s.script := rfl
@[simp] theorem rest_startCks : (s.startCks).rest = s.rest := rfl
@[simp] theorem build_startCks : (s.startCks).build = s.build := rfl
@[simp] theorem draws_startCks : (s.startCks).draws = s.draws := rfl

/-! ### updateCks -/

@[simp] theorem outStore_updateCks (b : Byte) : (s.updateCks b).outStore = s.outStore := rfl
@[simp] theorem inStore_updateCks (b : Byte) : (s.updateCks b).inStore = s.inStore := rfl
@[simp] theorem timeout_updateCks (b : Byte) : (s.updateCks b).timeout = s.timeout := rfl
@[simp] theorem lastCks_updateCks (b : Byte) : (s.updateCks b).lastCks = s.lastCks := rfl
@[simp] theorem acc_updateCks (b : Byte) : (s.updateCks b).acc = cksUpdate s.build.cksAlg s.acc b := rfl
@[simp] theorem phase_updateCks (b : Byte) : (s.updateCks b).phase = s.phase := rfl
@[simp] theorem t0_updateCks (b : Byte) : (s.updateCks b).t0 = s.t0 := rfl
@[simp] theorem len_updateCks (b : Byte) : (s.updateCks b).len = s.len := rfl
@[simp] theorem cnt_updateCks (b : Byte) : (s.updateCks b).cnt = s.cnt := rfl
@[simp] theorem pbuf_updateCks (b : Byte) : (s.updateCks b).pbuf = s.pbuf := rfl
@[simp] theorem rxq_updateCks (b : Byte) : (s.updateCks b).rxq = s.rxq := rfl
@[simp] theorem txq_updateCks (b : Byte) : (s.updateCks b).txq = s.txq := rfl
@[simp] theorem now_updateCks (b : Byte) : (s.updateCks b).now = s.now := rfl
@[simp] theorem resp_updateCks (b : Byte) : (s.updateCks b).resp = s.resp := rfl
@[simp] theorem appErr_updateCks (b : Byte) : (s.updateCks b).appErr = s.appErr := rfl
@[simp] theorem appRdata_updateCks (b : Byte) : (s.updateCks b).appRdata = s.appRdata := rfl
@[simp] theorem rxPop_updateCks (b : Byte) : (s.updateCks b).rxPop = s.rxPop := rfl
@[simp] theorem tx_updateCks (b : Byte) : (s.updateCks b).tx = s.tx := rfl
@[simp] theorem txTaken_updateCks (b : Byte) : (s.updateCks b).txTaken = s.txTaken := rfl
@[simp] theorem script_updateCks (b : Byte) : (s.updateCks b).script = s.script := rfl
@[simp] theorem rest_updateCks (b : Byte) : (s.updateCks b).rest = s.rest := rfl
@[simp] theorem build_updateCks (b : Byte) : (s.updateCks b).build = s.build := rfl
@[simp] theorem draws_updateCks (b : Byte) : (s.updateCks b).draws = s.draws := rfl

/-! ### finishCks -/

@[simp] theorem outStore_finishCks : (s.finishCks).outStore = s.outStore := rfl
@[simp] theorem inStore_finishCks : (s.finishCks).inStore = s.inStore := rfl
@[simp] theorem timeout_finishCks : (s.finishCks).timeout = s.timeout := rfl
@[simp] theorem lastCks_finishCks : (s.finishCks).lastCks = cksFinal s.build.cksAlg s.acc := rfl
@[simp] theorem acc_finishCks : (s.finishCks).acc = s.acc := rfl
@[simp] theorem phase_finishCks : (s.finishCks).phase = s.phase := rfl
@[simp] theorem t0_finishCks : (s.finishCks).t0 = s.t0 := rfl
@[simp] theorem len_finishCks : (s.finishCks).len = s.len := rfl
@[simp] theorem cnt_finishCks : (s.finishCks).cnt = s.cnt := rfl
@[simp] theorem pbuf_finishCks : (s.finishCks).pbuf = s.pbuf := rfl
@[simp] theorem rxq_finishCks : (s.finishCks).rxq = s.rxq := rfl
@[simp] theorem txq_finishCks : (s.finishCks).txq = s.txq := rfl
@[simp] theorem now_finishCks : (s.finishCks).now = s.now := rfl
@[simp] theorem resp_finishCks : (s.finishCks).resp = s.resp := rfl
@[simp] theorem appErr_finishCks : (s.finishCks).appErr = s.appErr := rfl
@[simp] theorem appRdata_finishCks : (s.finishCks).appRdata = s.appRdata := rfl
@[simp] theorem rxPop_finishCks : (s.finishCks).rxPop = s.rxPop := rfl
@[simp] theorem tx_finishCks : (s.finishCks).tx = s.tx := rfl
@[simp] theorem txTaken_finishCks : (s.finishCks).txTaken = s.txTaken := rfl
@[simp] theorem script_finishCks : (s.finishCks).script = s.script := rfl
@[simp] theorem rest_finishCks : (s.finishCks).rest = s.rest := rfl
@[simp] theorem build_finishCks : (s.finishCks).build = s.build := rfl
@[simp] theorem draws_finishCks : (s.finishCks).draws = s.draws := rfl

/-! ### countUp -/

@[simp] theorem outStore_countUp : (s.countUp).outStore = s.outStore := rfl
@[simp] theorem inStore_countUp : (s.countUp).inStore = s.inStore := rfl
@[simp] theorem timeout_countUp : (s.countUp).timeout = s.timeout := rfl
@[simp] theorem lastCks_countUp : (s.countUp).lastCks = s.lastCks := rfl
@[simp] theorem acc_countUp : (s.countUp).acc = s.acc := rfl
@[simp] theorem phase_countUp : (s.countUp).phase = s.phase := rfl
@[simp] theorem t0_countUp : (s.countUp).t0 = s.t0 := rfl
@[simp] theorem len_countUp : (s.countUp).len = s.len := rfl
@[simp] theorem cnt_countUp : (s.countUp).cnt = s.cnt + 1 := rfl
@[simp] theorem pbuf_countUp : (s.countUp).pbuf = s.pbuf := rfl
@[simp] theorem rxq_countUp : (s.countUp).rxq = s.rxq := rfl
@[simp] theorem txq_countUp : (s.countUp).txq = s.txq := rfl
@[simp] theorem now_countUp : (s.countUp).now = s.now := rfl
@[simp] theorem resp_countUp : (s.countUp).resp = s.resp := rfl
@[simp] theorem appErr_countUp : (s.countUp).appErr = s.appErr := rfl
@[simp] theorem appRdata_countUp : (s.countUp).appRdata = s.appRdata := rfl
@[simp] theorem rxPop_countUp : (s.countUp).rxPop = s.rxPop := rfl
@[simp] theorem tx_countUp : (s.countUp).tx = s.tx := rfl
@[simp] theorem txTaken_countUp : (s.countUp).txTaken = s.txTaken := rfl
@[simp] theorem script_countUp : (s.countUp).script = s.script := rfl
@[simp] theorem rest_countUp : (s.countUp).rest = s.rest := rfl
@[simp] theorem build_countUp : (s.countUp).build = s.build := rfl
@[simp] theorem draws_countUp : (s.countUp).draws = s.draws := rfl

/-! ### countReset -/

@[simp] theorem outStore_countReset : (s.countReset).outStore = s.outStore := rfl
@[simp] theorem inStore_countReset : (s.countReset).inStore = s.inStore := rfl
@[simp] theorem timeout_countReset : (s.countReset).timeout = s.timeout := rfl
@[simp] theorem lastCks_countReset : (s.countReset).lastCks = s.lastCks := rfl
@[simp] theorem acc_countReset : (s.countReset).acc = s.acc := rfl
@[simp] theorem phase_countReset : (s.countReset).phase = s.phase := rfl
@[simp] theorem t0_countReset : (s.countReset).t0 = s.t0 := rfl
@[simp] theorem len_countReset : (s.countReset).len = s.len := rfl
@[simp] theorem cnt_countReset : (s.countReset).cnt = 0 := rfl
@[simp] theorem pbuf_countReset : (s.countReset).pbuf = s.pbuf := rfl
@[simp] theorem rxq_countReset : (s.countReset).rxq = s.rxq := rfl
@[simp] theorem txq_countReset : (s.countReset).txq = s.txq := rfl
@[simp] theorem now_countReset : (s.countReset).now = s.now := rfl
@[simp] theorem resp_countReset : (s.countReset).resp = s.resp := rfl
@[simp] theorem appErr_countReset : (s.countReset).appErr = s.appErr := rfl
@[simp] theorem appRdata_countReset : (s.countReset).appRdata = s.appRdata := rfl
@[simp] theorem rxPop_countReset : (s.countReset).rxPop = s.rxPop := rfl
@[simp] theorem tx_countReset : (s.countReset).tx = s.tx := rfl
@[simp] theorem txTaken_countReset : (s.countReset).txTaken = s.txTaken := rfl
@[simp] theorem script_countReset : (s.countReset).script = s.script := rfl
@[simp] theorem rest_countReset : (s.countReset).rest = s.rest := rfl
@[simp] theorem build_countReset : (s.countReset).build = s.build := rfl
@[simp] theorem draws_countReset : (s.countReset).draws = s.draws := rfl

/-! ### enter -/

@[simp] theorem outStore_enter (p : Phase) : (s.enter p).outStore = s.outStore := rfl
@[simp] theorem inStore_enter (p : Phase) : (s.enter p).inStore = s.inStore := rfl
@[simp] theorem timeout_enter (p : Phase) : (s.enter p).timeout = s.timeout := rfl
@[simp] theorem lastCks_enter (p : Phase) : (s.enter p).lastCks = s.lastCks := rfl
@[simp] theorem acc_enter (p : Phase) : (s.enter p).acc = s.acc := rfl
@[simp] theorem phase_enter (p : Phase) : (s.enter p).phase = p := rfl
@[simp] theorem t0_enter (p : Phase) : (s.enter p).t0 = s.t0 := rfl
@[simp] theorem len_enter (p : Phase) : (s.enter p).len = s.len := rfl
@[simp] theorem cnt_enter (p : Phase) : (s.enter p).cnt = s.cnt := rfl
@[simp] theorem pbuf_enter (p : Phase) : (s.enter p).pbuf = s.pbuf := rfl
@[simp] theorem rxq_enter (p : Phase) : (s.enter p).rxq = s.rxq := rfl
@[simp] theorem txq_enter (p : Phase) : (s.enter p).txq = s.txq := rfl
@[simp] theorem now_enter (p : Phase) : (s.enter p).now = s.now := rfl
@[simp] theorem resp_enter (p : Phase) : (s.enter p).resp = s.resp := rfl
@[simp] theorem appErr_enter (p : Phase) : (s.enter p).appErr = s.appErr := rfl
@[simp] theorem appRdata_enter (p : Phase) : (s.enter p).appRdata = s.appRdata := rfl
@[simp] theorem rxPop_enter (p : Phase) : (s.enter p).rxPop = s.rxPop := rfl
@[simp] theorem tx_enter (p : Phase) : (s.enter p).tx = s.tx := rfl
@[simp] theorem txTaken_enter (p : Phase) : (s.enter p).txTaken = s.txTaken := rfl
@[simp] theorem script_enter (p : Phase) : (s.enter p).script = s.script := rfl
@[simp] theorem rest_enter (p : Phase) : (s.enter p).rest = s.rest := rfl
@[simp] theorem build_enter (p : Phase) : (s.enter p).build = s.build := rfl
@[simp] theorem draws_enter (p : Phase) : (s.enter p).draws = s.draws := rfl

/-! ### accessOk -/

@[simp] theorem outStore_accessOk : (s.accessOk).outStore = s.outStore := rfl
@[simp] theorem inStore_accessOk : (s.accessOk).inStore = s.inStore := rfl
@[simp] theorem timeout_accessOk : (s.accessOk).timeout = s.timeout := rfl
@[simp] theorem lastCks_accessOk : (s.accessOk).lastCks = s.lastCks := rfl
@[simp] theorem acc_accessOk : (s.accessOk).acc = s.acc := rfl
@[simp] theorem phase_accessOk : (s.accessOk).phase = s.phase := rfl
@[simp] theorem t0_accessOk : (s.accessOk).t0 = s.t0 := rfl
@[simp] theorem len_accessOk : (s.accessOk).len = s.len := rfl
@[simp] theorem cnt_accessOk : (s.accessOk).cnt = s.cnt := rfl
@[simp] theorem pbuf_accessOk : (s.accessOk).pbuf = s.pbuf := rfl
@[simp] theorem rxq_accessOk : (s.accessOk).rxq = s.rxq := rfl
@[simp] theorem txq_accessOk : (s.accessOk).txq = s.txq := rfl
@[simp] theorem now_accessOk : (s.accessOk).now = s.now := rfl
@[simp] theorem resp_accessOk : (s.accessOk).resp = s.resp := rfl
@[simp] theorem appErr_accessOk : (s.accessOk).appErr = false := rfl
@[simp] theorem appRdata_accessOk : (s.accessOk).appRdata = s.appRdata := rfl
@[simp] theorem rxPop_accessOk : (s.accessOk).rxPop = s.rxPop := rfl
@[simp] theorem tx_accessOk : (s.accessOk).tx = s.tx := rfl
@[simp] theorem txTaken_accessOk : (s.accessOk).txTaken = s.txTaken := rfl
@[simp] theorem script_accessOk : (s.accessOk).script = s.script := rfl
@[simp] theorem rest_accessOk : (s.accessOk).rest = s.rest := rfl
@[simp] theorem build_accessOk : (s.accessOk).build = s.build := rfl
@[simp] theorem draws_accessOk : (s.accessOk).draws = s.draws := rfl

/-! ### accessRejected -/

@[simp] theorem outStore_accessRejected : (s.accessRejected).outStore = s.outStore := rfl
@[simp] theorem inStore_accessRejected : (s.accessRejected).inStore = s.inStore := rfl
@[simp] theorem timeout_accessRejected : (s.accessRejected).timeout = s.timeout := rfl
@[simp] theorem lastCks_accessRejected : (s.accessRejected).lastCks = s.lastCks := rfl
@[simp] theorem acc_accessRejected : (s.accessRejected).acc = s.acc := rfl
@[simp] theorem phase_accessRejected : (s.accessRejected).phase = s.phase := rfl
@[simp] theorem t0_accessRejected : (s.accessRejected).t0 = s.t0 := rfl
@[simp] theorem len_accessRejected : (s.accessRejected).len = s.len := rfl
@[simp] theorem cnt_accessRejected : (s.accessRejected).cnt = s.cnt := rfl
@[simp] theorem pbuf_accessRejected : (s.accessRejected).pbuf = s.pbuf := rfl
@[simp] theorem rxq_accessRejected : (s.accessRejected).rxq = s.rxq := rfl
@[simp] theorem txq_accessRejected : (s.accessRejected).txq = s.txq := rfl
@[simp] theorem now_accessRejected : (s.accessRejected).now = s.now := rfl
@[simp] theorem resp_accessRejected : (s.accessRejected).resp = s.resp := rfl
@[simp] theorem appErr_accessRejected : (s.accessRejected).appErr = true := rfl
@[simp] theorem appRdata_accessRejected : (s.accessRejected).appRdata = s.appRdata := rfl
@[simp] theorem rxPop_accessRejected : (s.accessRejected).rxPop = s.rxPop := rfl
@[simp] theorem tx_accessRejected : (s.accessRejected).tx = s.tx := rfl
@[simp] theorem txTaken_accessRejected : (s.accessRejected).txTaken = s.txTaken := rfl
@[simp] theorem script_accessRejected : (s.accessRejected).script = s.script := rfl
@[simp] theorem rest_accessRejected : (s.accessRejected).rest = s.rest := rfl
@[simp] theorem build_accessRejected : (s.accessRejected).build = s.build := rfl
@[simp] theorem draws_accessRejected : (s.accessRejected).draws = s.draws := rfl

/-! ### showRead -/

@[simp] theorem outStore_showRead (v : Byte) : (s.showRead v).outStore = s.outStore := rfl
@[simp] theorem inStore_showRead (v : Byte) : (s.showRead v).inStore = s.inStore := rfl
@[simp] theorem timeout_showRead (v : Byte) : (s.showRead v).timeout = s.timeout := rfl
@[simp] theorem lastCks_showRead (v : Byte) : (s.showRead v).lastCks = s.lastCks := rfl
@[simp] theorem acc_showRead (v : Byte) : (s.showRead v).acc = s.acc := rfl
@[simp] theorem phase_showRead (v : Byte) : (s.showRead v).phase = s.phase := rfl
@[simp] theorem t0_showRead (v : Byte) : (s.showRead v).t0 = s.t0 := rfl
@[simp] theorem len_showRead (v : Byte) : (s.showRead v).len = s.len := rfl
@[simp] theorem cnt_showRead (v : Byte) : (s.showRead v).cnt = s.cnt := rfl
@[simp] theorem pbuf_showRead (v : Byte) : (s.showRead v).pbuf = s.pbuf := rfl
@[simp] theorem rxq_showRead (v : Byte) : (s.showRead v).rxq = s.rxq := rfl
@[simp] theorem txq_showRead (v : Byte) : (s.showRead v).txq = s.txq := rfl
@[simp] theorem now_showRead (v : Byte) : (s.showRead v).now = s.now := rfl
@[simp] theorem resp_showRead (v : Byte) : (s.showRead v).resp = s.resp := rfl
@[simp] theorem appErr_showRead (v : Byte) : (s.showRead v).appErr = s.appErr := rfl
@[simp] theorem appRdata_showRead (v : Byte) : (s.showRead v).appRdata = some v := rfl
@[simp] theorem rxPop_showRead (v : Byte) : (s.showRead v).rxPop = s.rxPop := rfl
@[simp] theorem tx_showRead (v : Byte) : (s.showRead v).tx = s.tx := rfl
@[simp] theorem txTaken_showRead (v : Byte) : (s.showRead v).txTaken = s.txTaken := rfl
@[simp] theorem script_showRead (v : Byte) : (s.showRead v).script = s.script := rfl
@[simp] theorem rest_showRead (v : Byte) : (s.showRead v).rest = s.rest := rfl
@[simp] theorem build_showRead (v : Byte) : (s.showRead v).build = s.build := rfl
@[simp] theorem draws_showRead (v : Byte) : (s.showRead v).draws = s.draws := rfl

/-! ### beginCycle -/

@[simp] theorem outStore_beginCycle (i : Inputs) : (s.beginCycle i).outStore = s.outStore := rfl
@[simp] theorem inStore_beginCycle (i : Inputs) : (s.beginCycle i).inStore = s.inStore := rfl
@[simp] theorem timeout_beginCycle (i : Inputs) : (s.beginCycle i).timeout = s.timeout := rfl
@[simp] theorem lastCks_beginCycle (i : Inputs) : (s.beginCycle i).lastCks = s.lastCks := rfl
@[simp] theorem acc_beginCycle (i : Inputs) : (s.beginCycle i).acc = s.acc := rfl
@[simp] theorem phase_beginCycle (i : Inputs) : (s.beginCycle i).phase = s.phase := rfl
@[simp] theorem t0_beginCycle (i : Inputs) : (s.beginCycle i).t0 = s.t0 := rfl
@[simp] theorem len_beginCycle (i : Inputs) : (s.beginCycle i).len = s.len := rfl
@[simp] theorem cnt_beginCycle (i : Inputs) : (s.beginCycle i).cnt = s.cnt := rfl
@[simp] theorem pbuf_beginCycle (i : Inputs) : (s.beginCycle i).pbuf = s.pbuf := rfl
@[simp] theorem rxq_beginCycle (i : Inputs) : (s.beginCycle i).rxq = s.rxq := rfl
@[simp] theorem txq_beginCycle (i : Inputs) : (s.beginCycle i).txq = s.txq := rfl
@[simp] theorem now_beginCycle (i : Inputs) : (s.beginCycle i).now = if i.tick then s.now + 1 else s.now := rfl
@[simp] theorem resp_beginCycle (i : Inputs) : (s.beginCycle i).resp = none := rfl
@[simp] theorem appErr_beginCycle (i : Inputs) : (s.beginCycle i).appErr = false := rfl
@[simp] theorem appRdata_beginCycle (i : Inputs) : (s.beginCycle i).appRdata = none := rfl
@[simp] theorem rxPop_beginCycle (i : Inputs) : (s.beginCycle i).rxPop = false := rfl
@[simp] theorem tx_beginCycle (i : Inputs) : (s.beginCycle i).tx = none := rfl
@[simp] theorem txTaken_beginCycle (i : Inputs) : (s.beginCycle i).txTaken = false := rfl
@[simp] theorem script_beginCycle (i : Inputs) : (s.beginCycle i).script = s.script.tail := rfl
@[simp] theorem rest_beginCycle (i : Inputs) : (s.beginCycle i).rest = s.rest := rfl
@[simp] theorem build_beginCycle (i : Inputs) : (s.beginCycle i).build = s.build := rfl
@[simp] theorem draws_beginCycle (i : Inputs) : (s.beginCycle i).draws = s.draws + 1 := rfl

/-! ### resetBlock -/

@[simp] theorem outStore_resetBlock : (s.resetBlock).outStore = bytesFrom numSlots (Config.freeOutSlot s.draws) := rfl
@[simp] theorem inStore_resetBlock : (s.resetBlock).inStore = bytesFrom numSlots (Config.freeInSlot s.draws) := rfl
@[simp] theorem timeout_resetBlock : (s.resetBlock).timeout = timeoutReset s.build := rfl
@[simp] theorem lastCks_resetBlock : (s.resetBlock).lastCks = 0x00 := rfl
@[simp] theorem acc_resetBlock : (s.resetBlock).acc = Config.freeAcc s.draws := rfl
@[simp] theorem phase_resetBlock : (s.resetBlock).phase = .idle := rfl
@[simp] theorem t0_resetBlock : (s.resetBlock).t0 = Config.freeT0 s.draws := rfl
@[simp] theorem len_resetBlock : (s.resetBlock).len = Config.freeLen s.draws := rfl
@[simp] theorem cnt_resetBlock : (s.resetBlock).cnt = Config.freeCnt s.draws := rfl
@[simp] theorem pbuf_resetBlock : (s.resetBlock).pbuf = bytesFrom pbufDepth (Config.freeBufByte s.draws) := rfl
@[simp] theorem rxq_resetBlock : (s.resetBlock).rxq = s.rxq := rfl
@[simp] theorem txq_resetBlock : (s.resetBlock).txq = s.txq := rfl
@[simp] theorem now_resetBlock : (s.resetBlock).now = s.now := rfl
@[simp] theorem resp_resetBlock : (s.resetBlock).resp = none := rfl
@[simp] theorem appErr_resetBlock : (s.resetBlock).appErr = false := rfl
@[simp] theorem appRdata_resetBlock : (s.resetBlock).appRdata = none := rfl
@[simp] theorem rxPop_resetBlock : (s.resetBlock).rxPop = false := rfl
@[simp] theorem tx_resetBlock : (s.resetBlock).tx = none := rfl
@[simp] theorem txTaken_resetBlock : (s.resetBlock).txTaken = false := rfl
@[simp] theorem script_resetBlock : (s.resetBlock).script = s.script := rfl
@[simp] theorem rest_resetBlock : (s.resetBlock).rest = s.rest := rfl
@[simp] theorem build_resetBlock : (s.resetBlock).build = s.build := rfl
@[simp] theorem draws_resetBlock : (s.resetBlock).draws = s.draws := rfl

/-! ### dropHead -/

@[simp] theorem outStore_dropHead : (s.dropHead).outStore = s.outStore := rfl
@[simp] theorem inStore_dropHead : (s.dropHead).inStore = s.inStore := rfl
@[simp] theorem timeout_dropHead : (s.dropHead).timeout = s.timeout := rfl
@[simp] theorem lastCks_dropHead : (s.dropHead).lastCks = s.lastCks := rfl
@[simp] theorem acc_dropHead : (s.dropHead).acc = s.acc := rfl
@[simp] theorem phase_dropHead : (s.dropHead).phase = s.phase := rfl
@[simp] theorem t0_dropHead : (s.dropHead).t0 = s.t0 := rfl
@[simp] theorem len_dropHead : (s.dropHead).len = s.len := rfl
@[simp] theorem cnt_dropHead : (s.dropHead).cnt = s.cnt := rfl
@[simp] theorem pbuf_dropHead : (s.dropHead).pbuf = s.pbuf := rfl
@[simp] theorem rxq_dropHead : (s.dropHead).rxq = s.rxq.tail := rfl
@[simp] theorem txq_dropHead : (s.dropHead).txq = s.txq := rfl
@[simp] theorem now_dropHead : (s.dropHead).now = s.now := rfl
@[simp] theorem resp_dropHead : (s.dropHead).resp = s.resp := rfl
@[simp] theorem appErr_dropHead : (s.dropHead).appErr = s.appErr := rfl
@[simp] theorem appRdata_dropHead : (s.dropHead).appRdata = s.appRdata := rfl
@[simp] theorem rxPop_dropHead : (s.dropHead).rxPop = true := rfl
@[simp] theorem tx_dropHead : (s.dropHead).tx = s.tx := rfl
@[simp] theorem txTaken_dropHead : (s.dropHead).txTaken = s.txTaken := rfl
@[simp] theorem script_dropHead : (s.dropHead).script = s.script := rfl
@[simp] theorem rest_dropHead : (s.dropHead).rest = s.rest := rfl
@[simp] theorem build_dropHead : (s.dropHead).build = s.build := rfl
@[simp] theorem draws_dropHead : (s.dropHead).draws = s.draws := rfl

/-! ### offerTx -/

@[simp] theorem outStore_offerTx (b : Byte) : (s.offerTx b).outStore = s.outStore := rfl
@[simp] theorem inStore_offerTx (b : Byte) : (s.offerTx b).inStore = s.inStore := rfl
@[simp] theorem timeout_offerTx (b : Byte) : (s.offerTx b).timeout = s.timeout := rfl
@[simp] theorem lastCks_offerTx (b : Byte) : (s.offerTx b).lastCks = s.lastCks := rfl
@[simp] theorem acc_offerTx (b : Byte) : (s.offerTx b).acc = s.acc := rfl
@[simp] theorem phase_offerTx (b : Byte) : (s.offerTx b).phase = s.phase := rfl
@[simp] theorem t0_offerTx (b : Byte) : (s.offerTx b).t0 = s.t0 := rfl
@[simp] theorem len_offerTx (b : Byte) : (s.offerTx b).len = s.len := rfl
@[simp] theorem cnt_offerTx (b : Byte) : (s.offerTx b).cnt = s.cnt := rfl
@[simp] theorem pbuf_offerTx (b : Byte) : (s.offerTx b).pbuf = s.pbuf := rfl
@[simp] theorem rxq_offerTx (b : Byte) : (s.offerTx b).rxq = s.rxq := rfl
@[simp] theorem txq_offerTx (b : Byte) : (s.offerTx b).txq = s.txq := rfl
@[simp] theorem now_offerTx (b : Byte) : (s.offerTx b).now = s.now := rfl
@[simp] theorem resp_offerTx (b : Byte) : (s.offerTx b).resp = s.resp := rfl
@[simp] theorem appErr_offerTx (b : Byte) : (s.offerTx b).appErr = s.appErr := rfl
@[simp] theorem appRdata_offerTx (b : Byte) : (s.offerTx b).appRdata = s.appRdata := rfl
@[simp] theorem rxPop_offerTx (b : Byte) : (s.offerTx b).rxPop = s.rxPop := rfl
@[simp] theorem tx_offerTx (b : Byte) : (s.offerTx b).tx = some b := rfl
@[simp] theorem txTaken_offerTx (b : Byte) : (s.offerTx b).txTaken = s.txTaken := rfl
@[simp] theorem script_offerTx (b : Byte) : (s.offerTx b).script = s.script := rfl
@[simp] theorem rest_offerTx (b : Byte) : (s.offerTx b).rest = s.rest := rfl
@[simp] theorem build_offerTx (b : Byte) : (s.offerTx b).build = s.build := rfl
@[simp] theorem draws_offerTx (b : Byte) : (s.offerTx b).draws = s.draws := rfl

/-! ### sendTx -/

@[simp] theorem outStore_sendTx (b : Byte) : (s.sendTx b).outStore = s.outStore := rfl
@[simp] theorem inStore_sendTx (b : Byte) : (s.sendTx b).inStore = s.inStore := rfl
@[simp] theorem timeout_sendTx (b : Byte) : (s.sendTx b).timeout = s.timeout := rfl
@[simp] theorem lastCks_sendTx (b : Byte) : (s.sendTx b).lastCks = s.lastCks := rfl
@[simp] theorem acc_sendTx (b : Byte) : (s.sendTx b).acc = s.acc := rfl
@[simp] theorem phase_sendTx (b : Byte) : (s.sendTx b).phase = s.phase := rfl
@[simp] theorem t0_sendTx (b : Byte) : (s.sendTx b).t0 = s.t0 := rfl
@[simp] theorem len_sendTx (b : Byte) : (s.sendTx b).len = s.len := rfl
@[simp] theorem cnt_sendTx (b : Byte) : (s.sendTx b).cnt = s.cnt := rfl
@[simp] theorem pbuf_sendTx (b : Byte) : (s.sendTx b).pbuf = s.pbuf := rfl
@[simp] theorem rxq_sendTx (b : Byte) : (s.sendTx b).rxq = s.rxq := rfl
@[simp] theorem txq_sendTx (b : Byte) : (s.sendTx b).txq = s.txq ++ [b] := rfl
@[simp] theorem now_sendTx (b : Byte) : (s.sendTx b).now = s.now := rfl
@[simp] theorem resp_sendTx (b : Byte) : (s.sendTx b).resp = s.resp := rfl
@[simp] theorem appErr_sendTx (b : Byte) : (s.sendTx b).appErr = s.appErr := rfl
@[simp] theorem appRdata_sendTx (b : Byte) : (s.sendTx b).appRdata = s.appRdata := rfl
@[simp] theorem rxPop_sendTx (b : Byte) : (s.sendTx b).rxPop = s.rxPop := rfl
@[simp] theorem tx_sendTx (b : Byte) : (s.sendTx b).tx = some b := rfl
@[simp] theorem txTaken_sendTx (b : Byte) : (s.sendTx b).txTaken = true := rfl
@[simp] theorem script_sendTx (b : Byte) : (s.sendTx b).script = s.script := rfl
@[simp] theorem rest_sendTx (b : Byte) : (s.sendTx b).rest = s.rest := rfl
@[simp] theorem build_sendTx (b : Byte) : (s.sendTx b).build = s.build := rfl
@[simp] theorem draws_sendTx (b : Byte) : (s.sendTx b).draws = s.draws := rfl

/-! ### latchLength -/

@[simp] theorem outStore_latchLength (b : Byte) : (s.latchLength b).outStore = s.outStore := rfl
@[simp] theorem inStore_latchLength (b : Byte) : (s.latchLength b).inStore = s.inStore := rfl
@[simp] theorem timeout_latchLength (b : Byte) : (s.latchLength b).timeout = s.timeout := rfl
@[simp] theorem lastCks_latchLength (b : Byte) : (s.latchLength b).lastCks = s.lastCks := rfl
@[simp] theorem acc_latchLength (b : Byte) : (s.latchLength b).acc = s.acc := rfl
@[simp] theorem phase_latchLength (b : Byte) : (s.latchLength b).phase = s.phase := rfl
@[simp] theorem t0_latchLength (b : Byte) : (s.latchLength b).t0 = s.t0 := rfl
@[simp] theorem len_latchLength (b : Byte) : (s.latchLength b).len = b := rfl
@[simp] theorem cnt_latchLength (b : Byte) : (s.latchLength b).cnt = s.cnt := rfl
@[simp] theorem pbuf_latchLength (b : Byte) : (s.latchLength b).pbuf = s.pbuf := rfl
@[simp] theorem rxq_latchLength (b : Byte) : (s.latchLength b).rxq = s.rxq := rfl
@[simp] theorem txq_latchLength (b : Byte) : (s.latchLength b).txq = s.txq := rfl
@[simp] theorem now_latchLength (b : Byte) : (s.latchLength b).now = s.now := rfl
@[simp] theorem resp_latchLength (b : Byte) : (s.latchLength b).resp = s.resp := rfl
@[simp] theorem appErr_latchLength (b : Byte) : (s.latchLength b).appErr = s.appErr := rfl
@[simp] theorem appRdata_latchLength (b : Byte) : (s.latchLength b).appRdata = s.appRdata := rfl
@[simp] theorem rxPop_latchLength (b : Byte) : (s.latchLength b).rxPop = s.rxPop := rfl
@[simp] theorem tx_latchLength (b : Byte) : (s.latchLength b).tx = s.tx := rfl
@[simp] theorem txTaken_latchLength (b : Byte) : (s.latchLength b).txTaken = s.txTaken := rfl
@[simp] theorem script_latchLength (b : Byte) : (s.latchLength b).script = s.script := rfl
@[simp] theorem rest_latchLength (b : Byte) : (s.latchLength b).rest = s.rest := rfl
@[simp] theorem build_latchLength (b : Byte) : (s.latchLength b).build = s.build := rfl
@[simp] theorem draws_latchLength (b : Byte) : (s.latchLength b).draws = s.draws := rfl

/-! ### writeTimeout -/

@[simp] theorem outStore_writeTimeout (d : Tick) : (s.writeTimeout d).outStore = s.outStore := rfl
@[simp] theorem inStore_writeTimeout (d : Tick) : (s.writeTimeout d).inStore = s.inStore := rfl
@[simp] theorem timeout_writeTimeout (d : Tick) : (s.writeTimeout d).timeout = d := rfl
@[simp] theorem lastCks_writeTimeout (d : Tick) : (s.writeTimeout d).lastCks = s.lastCks := rfl
@[simp] theorem acc_writeTimeout (d : Tick) : (s.writeTimeout d).acc = s.acc := rfl
@[simp] theorem phase_writeTimeout (d : Tick) : (s.writeTimeout d).phase = s.phase := rfl
@[simp] theorem t0_writeTimeout (d : Tick) : (s.writeTimeout d).t0 = s.t0 := rfl
@[simp] theorem len_writeTimeout (d : Tick) : (s.writeTimeout d).len = s.len := rfl
@[simp] theorem cnt_writeTimeout (d : Tick) : (s.writeTimeout d).cnt = s.cnt := rfl
@[simp] theorem pbuf_writeTimeout (d : Tick) : (s.writeTimeout d).pbuf = s.pbuf := rfl
@[simp] theorem rxq_writeTimeout (d : Tick) : (s.writeTimeout d).rxq = s.rxq := rfl
@[simp] theorem txq_writeTimeout (d : Tick) : (s.writeTimeout d).txq = s.txq := rfl
@[simp] theorem now_writeTimeout (d : Tick) : (s.writeTimeout d).now = s.now := rfl
@[simp] theorem resp_writeTimeout (d : Tick) : (s.writeTimeout d).resp = s.resp := rfl
@[simp] theorem appErr_writeTimeout (d : Tick) : (s.writeTimeout d).appErr = s.appErr := rfl
@[simp] theorem appRdata_writeTimeout (d : Tick) : (s.writeTimeout d).appRdata = s.appRdata := rfl
@[simp] theorem rxPop_writeTimeout (d : Tick) : (s.writeTimeout d).rxPop = s.rxPop := rfl
@[simp] theorem tx_writeTimeout (d : Tick) : (s.writeTimeout d).tx = s.tx := rfl
@[simp] theorem txTaken_writeTimeout (d : Tick) : (s.writeTimeout d).txTaken = s.txTaken := rfl
@[simp] theorem script_writeTimeout (d : Tick) : (s.writeTimeout d).script = s.script := rfl
@[simp] theorem rest_writeTimeout (d : Tick) : (s.writeTimeout d).rest = s.rest := rfl
@[simp] theorem build_writeTimeout (d : Tick) : (s.writeTimeout d).build = s.build := rfl
@[simp] theorem draws_writeTimeout (d : Tick) : (s.writeTimeout d).draws = s.draws := rfl

/-! ### portRead -/

@[simp] theorem outStore_portRead (v : Option Byte) : (s.portRead v).outStore = s.outStore := by cases v <;> rfl
@[simp] theorem inStore_portRead (v : Option Byte) : (s.portRead v).inStore = s.inStore := by cases v <;> rfl
@[simp] theorem timeout_portRead (v : Option Byte) : (s.portRead v).timeout = s.timeout := by cases v <;> rfl
@[simp] theorem lastCks_portRead (v : Option Byte) : (s.portRead v).lastCks = s.lastCks := by cases v <;> rfl
@[simp] theorem acc_portRead (v : Option Byte) : (s.portRead v).acc = s.acc := by cases v <;> rfl
@[simp] theorem phase_portRead (v : Option Byte) : (s.portRead v).phase = s.phase := by cases v <;> rfl
@[simp] theorem t0_portRead (v : Option Byte) : (s.portRead v).t0 = s.t0 := by cases v <;> rfl
@[simp] theorem len_portRead (v : Option Byte) : (s.portRead v).len = s.len := by cases v <;> rfl
@[simp] theorem cnt_portRead (v : Option Byte) : (s.portRead v).cnt = s.cnt := by cases v <;> rfl
@[simp] theorem pbuf_portRead (v : Option Byte) : (s.portRead v).pbuf = s.pbuf := by cases v <;> rfl
@[simp] theorem rxq_portRead (v : Option Byte) : (s.portRead v).rxq = s.rxq := by cases v <;> rfl
@[simp] theorem txq_portRead (v : Option Byte) : (s.portRead v).txq = s.txq := by cases v <;> rfl
@[simp] theorem now_portRead (v : Option Byte) : (s.portRead v).now = s.now := by cases v <;> rfl
@[simp] theorem resp_portRead (v : Option Byte) : (s.portRead v).resp = s.resp := by cases v <;> rfl
@[simp] theorem rxPop_portRead (v : Option Byte) : (s.portRead v).rxPop = s.rxPop := by cases v <;> rfl
@[simp] theorem tx_portRead (v : Option Byte) : (s.portRead v).tx = s.tx := by cases v <;> rfl
@[simp] theorem txTaken_portRead (v : Option Byte) : (s.portRead v).txTaken = s.txTaken := by cases v <;> rfl
@[simp] theorem script_portRead (v : Option Byte) : (s.portRead v).script = s.script := by cases v <;> rfl
@[simp] theorem rest_portRead (v : Option Byte) : (s.portRead v).rest = s.rest := by cases v <;> rfl
@[simp] theorem build_portRead (v : Option Byte) : (s.portRead v).build = s.build := by cases v <;> rfl
@[simp] theorem draws_portRead (v : Option Byte) : (s.portRead v).draws = s.draws := by cases v <;> rfl

@[simp] theorem appErr_portRead (v : Option Byte) : (s.portRead v).appErr = v.isNone := by cases v <;> rfl
@[simp] theorem appRdata_portRead (v : Option Byte) : (s.portRead v).appRdata = some (v.getD 0x00) := by cases v <;> rfl

end Sys2Proof.Machine.State
end

