-- ==== Sys2Proof/Laws/Ops.lean ====
section
/-! SUPPORT. One law per shared operation: what it answers, in numbers and lists. -/

namespace Sys2Proof.Machine

@[simp] theorem andThen_next (s : State) (k : State → Result) : andThen (.next s) k = k s := rfl

/-- A chain answers a next state exactly through one in the middle. -/
theorem andThen_eq_next {r : Result} {k : State → Result} {t : State} :
    andThen r k = .next t ↔ ∃ s, r = .next s ∧ k s = .next t := by
  cases r <;> simp [andThen]

namespace State

variable (s : State)

theorem toNat_rxAvail : s.rxAvail.toNat = min s.rxq.length 255 := by
  simp [rxAvail]

/-- `RxAvail() = 0` says that RXQ is empty. -/
theorem rxAvail_eq_zero_iff : s.rxAvail = 0 ↔ s.rxq = [] := by
  rw [← BitVec.toNat_inj, toNat_rxAvail, ← List.length_eq_zero_iff]
  simp only [BitVec.ofNat_eq_ofNat, BitVec.toNat_ofNat, Nat.zero_mod]
  omega

/-- `RxAvail() >= 1` says that RXQ is not empty. -/
theorem one_le_rxAvail_iff : (1 : Byte) ≤ s.rxAvail ↔ s.rxq ≠ [] := by
  rw [BitVec.le_def, toNat_rxAvail, ne_eq, ← List.length_eq_zero_iff]
  simp only [BitVec.ofNat_eq_ofNat, BitVec.toNat_ofNat]
  omega

/-- For a legal length the body has arrived when `LEN` + 2 bytes are in RXQ; saturation plays no part (R146). -/
theorem bodyArrived_iff (h : s.lenLegal) : s.bodyArrived = true ↔ s.len.toNat + 2 ≤ s.rxq.length := by
  rw [lenLegal, legalLength_iff] at h
  have h2 : (s.len + 2).toNat = s.len.toNat + 2 := by
    rw [BitVec.toNat_add]
    simp only [BitVec.ofNat_eq_ofNat, BitVec.toNat_ofNat]
    omega
  rw [bodyArrived, decide_eq_true_eq, BitVec.le_def, toNat_rxAvail, h2]
  omega

theorem timedOut_iff : s.timedOut = true ↔ s.timeout.toNat < (s.now - s.t0).toNat := by
  simp [timedOut, elapsed, BitVec.lt_def]

theorem popRx_cons {b : Byte} {q : List Byte} (h : s.rxq = b :: q) (k : Byte → State → Result) :
    s.popRx k = k b s.dropHead := by
  simp [popRx, h]

theorem popRx_nil (h : s.rxq = []) (k : Byte → State → Result) : s.popRx k = .refused .rxPopOnEmpty := by
  simp [popRx, h]

/-- A pop that goes on had a byte to pop. -/
theorem popRx_eq_next {k : Byte → State → Result} {t : State} :
    s.popRx k = .next t ↔ ∃ b q, s.rxq = b :: q ∧ k b s.dropHead = .next t := by
  unfold popRx
  split <;> simp_all

/-- `TxPush` always answers: the byte waits, or it is sent and the phase moves on. -/
theorem pushTx_eq_next {b : Byte} {ready : Bool} {k : State → State} {t : State} :
    s.pushTx b ready k = .next t ↔
      ready = false ∧ t = s.offerTx b ∨ ready = true ∧ t = k (s.sendTx b) := by
  cases ready <;> simp [pushTx, eq_comm]

theorem accept_idle (h : s.phase = .idle) (k : State → Result) : s.accept k = k s := by
  simp [accept, h]

theorem accept_busy (h : s.phase ≠ .idle) (k : State → Result) : s.accept k = .next s := by
  simp [accept, h]

/-- `CNT <- CNT + 1` counts while it stays below 127. -/
theorem index_countUp (h : s.index < 127) : s.countUp.index = s.index + 1 := by
  simp only [index, cnt_countUp] at *
  rw [BitVec.toNat_add]
  simp only [BitVec.ofNat_eq_ofNat, BitVec.toNat_ofNat]
  omega

@[simp] theorem index_countReset : s.countReset.index = 0 := by simp [index]

theorem index_le : s.index < 128 := s.cnt.isLt

theorem itemCount_le (h : s.lenLegal) : s.itemCount ≤ 40 ∧ 2 * s.itemCount = s.len.toNat := by
  rw [lenLegal, legalLength_iff] at h
  unfold itemCount
  omega

theorem readOut_of_lt {i : Nat} (h : i < 40) : ∃ v, s.readOut i = some v := by
  exact ⟨s.outStore[i], by simp [readOut, h]⟩

theorem buf_of_lt {i : Nat} (h : i < 80) : ∃ b, s.pbuf[i]? = some b := by
  exact ⟨s.pbuf[i], by simp [h]⟩

/-- Writing byte `n` extends the buffered prefix by it. -/
theorem buffered_writeBuf {n : Nat} (h : n < 80) (b : Byte) :
    (s.writeBuf n b).buffered (n + 1) = s.buffered n ++ [b] := by
  simp only [buffered, pbuf_writeBuf, Vector.toList_setIfInBounds]
  have hl : s.pbuf.toList.length = 80 := by simp
  apply List.ext_getElem?
  intro i
  simp only [List.getElem?_take, List.getElem?_append, List.length_take, hl, List.getElem?_set]
  by_cases h1 : i < n
  · simp [h1, show i < n + 1 by omega, show i < min n 80 by omega, show n ≠ i by omega]
  · by_cases h2 : i = n
    · subst h2
      simp [show min i 80 = i by omega, h]
    · simp [show ¬ i < n + 1 by omega, show min n 80 = n by omega, show i - n ≠ 0 by omega]
      omega

/-- Writes beyond a prefix leave it. -/
theorem buffered_writeBuf_of_le {n i : Nat} (h : n ≤ i) (b : Byte) : (s.writeBuf i b).buffered n = s.buffered n := by
  simp only [buffered, pbuf_writeBuf, Vector.toList_setIfInBounds, List.take_set_of_le h]

/-- The buffered prefix is a function of `PBUF` alone. -/
theorem buffered_congr {s t : State} (h : t.pbuf = s.pbuf) (n : Nat) : t.buffered n = s.buffered n := by
  simp [buffered, h]

/-- Writing pair `k` extends the buffered prefix by its id and its value (R122). -/
theorem buffered_writeItem {k : Nat} (h : k < 40) (item : Item) :
    (s.writeItem k item).buffered (2 * (k + 1)) = s.buffered (2 * k) ++ [item.id, item.value] := by
  unfold writeItem
  rw [show 2 * (k + 1) = 2 * k + 1 + 1 by omega, buffered_writeBuf _ (by omega), buffered_writeBuf _ (by omega)]
  simp

theorem length_buffered {n : Nat} (h : n ≤ 80) : (s.buffered n).length = n := by
  simp [buffered, h]

/-- The invariant reads `PHASE`, `LEN`, `CNT`, RXQ's length, the checksum registers, `PBUF` and the waiting byte only. -/
theorem inv_congr {s t : State} (h1 : t.phase = s.phase) (h2 : t.len = s.len) (h3 : t.cnt = s.cnt)
    (h4 : s.rxq.length ≤ t.rxq.length) (h5 : t.acc = s.acc) (h6 : t.build = s.build) (h7 : t.pbuf = s.pbuf)
    (h8 : t.lastCks = s.lastCks) (h9 : t.StallOk) (h : s.Inv) : t.Inv := by
  obtain ⟨a, b, c⟩ := h
  refine ⟨?_, ?_, h9⟩
  · unfold CountersOk lenLegal itemCount index at *
    rw [h1, h2, h3]
    split at a <;> simp_all <;> omega
  · unfold ChecksumOk accCovers cksCovers idsDense buffered itemCount index at *
    rw [h1, h2, h3, h5, h6, h7, h8]
    exact b

end State

/-! ### Counts -/

theorem toNat_lengthOfCount {c : BitVec 16} (h : c.toNat ≤ 40) : (lengthOfCount c).toNat = 2 * c.toNat := by
  simp [lengthOfCount, BitVec.toNat_shiftLeft, Nat.shiftLeft_eq]
  omega

theorem countFits_iff (c : BitVec 16) : countFits c = true ↔ c.toNat ≤ 40 := by
  simp [countFits]

theorem positionId_eq (c : BitVec 7) : positionId c = BitVec.ofNat 8 c.toNat := by
  apply BitVec.eq_of_toNat_eq
  simp [positionId]

theorem slotExists_iff (a : BitVec 6) : slotExists a = true ↔ a.toNat < 40 := by simp [slotExists]

theorem idInRange_iff (id : Byte) : idInRange id = true ↔ id.toNat < 40 := by simp [idInRange]

/-! ### The stores as cells -/

/-- A store's cells are canonical: every memory operation keeps the form, since none changes the array's size. -/
theorem cellsCanonical_storeCells {n : Nat} (store : Vector Byte n) : cellsCanonical (storeCells store) = true := by
  have h : (storeCells store).map Prod.fst = List.range' 0 n := by
    simp [storeCells, List.map_map, Function.comp_def, List.zipIdx_map_snd]
  simp only [cellsCanonical, decide_eq_true_eq, h]
  exact List.pairwise_lt_range'

theorem memory_wf (s : State) : Memory.wf s = true := by
  simp [Memory.wf, cellsCanonical_storeCells]

end Sys2Proof.Machine
end

