-- ==== Sys2Proof/Laws/Phases.lean ====
section
/-! SUPPORT. Everything a step of each phase, and each accepting step, can do: if it answers `next t`, one of these
cases holds. Later proofs cite these and unfold no step again. -/

namespace Sys2Proof.Machine

variable {s t : State} {ready : Bool}

/-- A branch between two next states is the next state of the branch. -/
theorem ite_next (c : Prop) [Decidable c] (a b : State) :
    (if c then (Host.Outcome.next a : Result) else .next b) = .next (if c then a else b) := by
  split <;> rfl

/-- `next` is told apart by its state. -/
theorem next_eq_next {a b : State} : (Host.Outcome.next a : Result) = .next b ↔ b = a := by
  rw [Host.Outcome.next.injEq]; exact eq_comm

/-! ### ENCODE -/

theorem stepBuild_eq_next : stepBuild s = .next t ↔
    (∃ v, s.index < s.itemCount ∧ s.readOut s.index = some v ∧
      t = (((s.writeItem s.index ⟨positionId s.cnt, v⟩).updateCks (positionId s.cnt)).updateCks v).countUp) ∨
    (s.itemCount ≤ s.index ∧ t = s.finishCks.enter .eStart) := by
  unfold stepBuild
  split
  · rename_i h
    split
    · rename_i v hv
      simp only [Host.Outcome.next.injEq, h, hv, true_and, Option.some.injEq, Nat.not_le.mpr h, false_and, or_false]
      exact ⟨fun e => ⟨v, rfl, e.symm⟩, fun ⟨_, e1, e2⟩ => by subst e1; exact e2.symm⟩
    · rename_i hv
      simp [hv, Nat.not_le.mpr h]
  · rename_i h
    simp only [Host.Outcome.next.injEq, h, false_and, exists_const, false_or, Nat.not_lt.mp h, true_and]
    exact eq_comm

theorem stepSendStart_eq_next : stepSendStart ready s = .next t ↔
    ready = false ∧ t = s.offerTx startByte ∨ ready = true ∧ t = (s.sendTx startByte).enter .eLen :=
  s.pushTx_eq_next

theorem stepSendLength_eq_next : stepSendLength ready s = .next t ↔
    ready = false ∧ t = s.offerTx s.len ∨
    ready = true ∧ t = ((s.sendTx s.len).countReset).enter (if s.len = 0 then .eCks else .ePay) :=
  s.pushTx_eq_next

theorem stepSendPayload_eq_next : stepSendPayload ready s = .next t ↔
    ∃ b, s.pbuf[s.index]? = some b ∧
      (ready = false ∧ t = s.offerTx b ∨
       ready = true ∧ t = if s.index + 1 = s.len.toNat then (s.sendTx b).enter .eCks else (s.sendTx b).countUp) := by
  unfold stepSendPayload
  split
  · rename_i b hb
    rw [State.pushTx_eq_next]
    simp only [hb, Option.some.injEq]
    exact ⟨fun h => ⟨b, rfl, h⟩, fun ⟨_, e, h⟩ => by subst e; exact h⟩
  · rename_i hb
    simp [hb]

theorem stepSendChecksum_eq_next : stepSendChecksum ready s = .next t ↔
    ready = false ∧ t = s.offerTx s.lastCks ∨ ready = true ∧ t = (s.sendTx s.lastCks).enter .eEnd :=
  s.pushTx_eq_next

theorem stepSendEnd_eq_next : stepSendEnd ready s = .next t ↔
    ready = false ∧ t = s.offerTx endByte ∨ ready = true ∧ t = (s.sendTx endByte).raise .ok :=
  s.pushTx_eq_next

/-! ### DECODE -/

@[simp] theorem timedOut_dropHead : s.dropHead.timedOut = s.timedOut := rfl

theorem stepSync_eq_next : stepSync s = .next t ↔
    s.rxq = [] ∧ t = s.raise .serialBuffError ∨
    ∃ b q, s.rxq = b :: q ∧
      t = if b = startByte then (s.dropHead.armTimer).enter .dLen
          else if s.timedOut then s.dropHead.raise .timeoutError else s.dropHead := by
  unfold stepSync
  simp only [State.rxAvail_eq_zero_iff, ite_next]
  split
  · rename_i h
    simp only [next_eq_next, h, true_and, List.nil_eq, reduceCtorEq, false_and, exists_const, or_false]
  · rename_i h
    simp only [State.popRx_eq_next, h, false_and, false_or, next_eq_next]
    exact Iff.rfl

theorem stepLength_eq_next : stepLength s = .next t ↔
    (∃ b q, s.rxq = b :: q ∧
      t = if legalLength b then ((s.dropHead.latchLength b).armTimer).enter .dBody
          else (s.dropHead.latchLength b).raise .payloadError) ∨
    s.rxq = [] ∧ t = if s.timedOut then s.raise .timeoutError else s := by
  unfold stepLength
  simp only [State.one_le_rxAvail_iff, ite_next]
  split
  · rename_i h
    simp only [State.popRx_eq_next, h, false_and, or_false, next_eq_next]
  · rename_i h
    simp only [ne_eq, Decidable.not_not] at h
    simp only [next_eq_next, h, true_and, List.nil_eq, reduceCtorEq, false_and, exists_const, false_or]

theorem stepBody_eq_next : stepBody s = .next t ↔
    t = if s.bodyArrived then s.countReset.startCks.enter .dRead
        else if s.timedOut then s.raise .timeoutError else s := by
  unfold stepBody
  simp only [ite_next, next_eq_next]

theorem stepRead_eq_next : stepRead s = .next t ↔
    (∃ b q, s.index < s.len.toNat ∧ s.index < 80 ∧ s.rxq = b :: q ∧
      t = ((s.dropHead.writeBuf s.index b).updateCks b).countUp) ∨
    s.len.toNat ≤ s.index ∧ t = s.finishCks.enter .dCks := by
  unfold stepRead
  split
  · rename_i h
    rw [State.popRx_eq_next]
    have hi : s.dropHead.index = s.index := rfl
    simp only [h, true_and, Nat.not_le.mpr h, false_and, or_false, hi]
    refine exists_congr fun b => exists_congr fun q => ?_
    by_cases h2 : s.index < pbufDepth
    · simp [h2, eq_comm]
    · simp [h2]
  · rename_i h
    simp only [h, false_and, exists_const, false_or, Nat.not_lt.mp h, true_and, Host.Outcome.next.injEq]
    exact eq_comm

theorem stepCompareChecksum_eq_next : stepCompareChecksum s = .next t ↔
    ∃ b q, s.rxq = b :: q ∧
      t = if b = s.lastCks then s.dropHead.enter .dEnd else s.dropHead.raise .checksumError := by
  unfold stepCompareChecksum
  simp only [State.popRx_eq_next, ite_next, next_eq_next]
  exact Iff.rfl

theorem stepCompareEnd_eq_next : stepCompareEnd s = .next t ↔
    ∃ b q, s.rxq = b :: q ∧
      t = if b = endByte then s.dropHead.countReset.enter .dApply else s.dropHead.raise .endByteError := by
  unfold stepCompareEnd
  simp only [State.popRx_eq_next, ite_next, next_eq_next]

theorem stepApply_eq_next : stepApply s = .next t ↔
    (∃ id v, s.index < s.itemCount ∧ s.pbuf[2 * s.index]? = some id ∧ s.pbuf[2 * s.index + 1]? = some v ∧
      t = (if idInRange id then s.writeIn id.toNat v else s).countUp) ∨
    s.itemCount ≤ s.index ∧ t = s.raise .ok := by
  unfold stepApply
  split
  · rename_i h
    split
    · rename_i id v h1 h2
      simp only [Host.Outcome.next.injEq, h, h1, h2, true_and, Option.some.injEq, Nat.not_le.mpr h, false_and, or_false]
      exact ⟨fun e => ⟨id, v, rfl, rfl, e.symm⟩, fun ⟨_, _, e1, e2, e3⟩ => by subst e1 e2; exact e3.symm⟩
    · rename_i hn
      simp only [reduceCtorEq, Nat.not_le.mpr h, false_and, or_false, false_iff, not_exists, not_and]
      intro id v _ h1 h2
      exact absurd h2 (hn id v h1)
  · rename_i h
    simp only [h, false_and, exists_const, false_or, Nat.not_lt.mp h, true_and, Host.Outcome.next.injEq]
    exact eq_comm

/-! ### The accepting steps -/

theorem execDecode_eq_next : execDecode s = .next t ↔
    s.phase ≠ .idle ∧ t = s ∨
    s.phase = .idle ∧ t = if s.rxq = [] then s.raise .noData else s.armTimer.enter .dSync := by
  unfold execDecode State.accept
  simp only [State.rxAvail_eq_zero_iff, ite_next, next_eq_next]
  by_cases h : s.phase = .idle <;> simp [h]

theorem execEncode_eq_next {c : BitVec 16} : execEncode c s = .next t ↔
    s.phase ≠ .idle ∧ t = s ∨
    s.phase = .idle ∧ t = if c.toNat ≤ 40 then
        ((s.latchLength (lengthOfCount c)).countReset.startCks).enter .eBuild
      else s.raise .encodeLengthError := by
  unfold execEncode State.accept
  simp only [countFits_iff, ite_next, next_eq_next]
  by_cases h : s.phase = .idle <;> simp [h]

theorem execSetTimeout_eq_next {d : BitVec 16} : execSetTimeout d s = .next t ↔
    s.phase ≠ .idle ∧ t = s ∨ s.phase = .idle ∧ t = (s.writeTimeout d).raise .ok := by
  unfold execSetTimeout State.accept
  simp only [ite_next, next_eq_next]
  by_cases h : s.phase = .idle <;> simp [h]

theorem execCmdReserved_eq_next : execCmdReserved s = .next t ↔ t = s := by
  unfold execCmdReserved State.accept
  simp only [ite_self, next_eq_next]

/-- A command word runs one of the four command meanings. -/
theorem exec_decodeCommand_eq_next {w : BitVec 18} (h : exec (decodeCommand w) s = .next t) :
    (decodeCommand w = .decode ∧ execDecode s = .next t) ∨
    (∃ c, decodeCommand w = .encode c ∧ execEncode c s = .next t) ∨
    (∃ d, decodeCommand w = .setTimeout d ∧ execSetTimeout d s = .next t) ∨
    (decodeCommand w = .cmdReserved ∧ t = s) := by
  rcases decodeCommand_cases w with hw | ⟨c, hw⟩ | ⟨d, hw⟩ | hw <;> rw [hw] at h
  · exact .inl ⟨hw, h⟩
  · exact .inr (.inl ⟨c, hw, h⟩)
  · exact .inr (.inr (.inl ⟨d, hw, h⟩))
  · exact .inr (.inr (.inr ⟨hw, execCmdReserved_eq_next.mp h⟩))

/-! ### The store port -/

/-- A store word that writes no slot changes the port's two outputs only. -/
theorem exec_decodeStore_read {w : BitVec 16} (hw : (decodeStore w).writesSlot = false) :
    ∃ e r, exec (decodeStore w) s = .next { s with appErr := e, appRdata := r } := by
  rcases decodeStore_cases w with ⟨a, v, h⟩ | ⟨a, h⟩ | ⟨a, h⟩ | h <;> rw [h] at hw ⊢
  · simp [Instr.writesSlot] at hw
  · refine ⟨(s.readOut a.toNat).isNone, some ((s.readOut a.toNat).getD 0), ?_⟩
    show execOutr a s = _
    unfold execOutr
    cases s.readOut a.toNat <;> rfl
  · refine ⟨(s.readIn a.toNat).isNone, some ((s.readIn a.toNat).getD 0), ?_⟩
    show execInr a s = _
    unfold execInr
    cases s.readIn a.toNat <;> rfl
  · exact ⟨true, s.appRdata, rfl⟩

/-- OUTW changes the addressed slot, if there is one, and `app_err`. -/
theorem execOutw_eq (a : BitVec 6) (v : Byte) (s : State) :
    execOutw a v s =
      .next { s with outStore := s.outStore.setIfInBounds a.toNat v, appErr := !decide (a.toNat < 40) } := by
  unfold execOutw
  by_cases h : a.toNat < 40
  · simp [(slotExists_iff a).mpr h, h, State.writeOut, State.accessOk]
  · have hs : s.outStore.setIfInBounds a.toNat v = s.outStore := by
      apply Vector.ext
      intro j hj
      have hj40 : j < 40 := hj
      rw [Vector.getElem_setIfInBounds, if_neg (by omega)]
    rw [if_neg (by rwa [slotExists_iff]), hs]
    simp [State.accessRejected, h]

/-- A store word that writes a slot is an OUTW. -/
theorem exec_decodeStore_write {w : BitVec 16} (hw : (decodeStore w).writesSlot = true) :
    ∃ a v, decodeStore w = .outw a v ∧
      exec (decodeStore w) s =
        .next { s with outStore := s.outStore.setIfInBounds a.toNat v, appErr := !decide (a.toNat < 40) } := by
  rcases decodeStore_cases w with ⟨a, v, h⟩ | ⟨a, h⟩ | ⟨a, h⟩ | h <;> rw [h] at hw ⊢
  · exact ⟨a, v, rfl, execOutw_eq a v s⟩
  all_goals simp [Instr.writesSlot] at hw

end Sys2Proof.Machine
end

