-- ==== Sys2Proof/Laws/Cycle.lean ====
section
/-! SUPPORT. What one cycle can do, said once: the pieces of a step and how they compose. -/

namespace Sys2Proof.Machine

variable {s t : State} {i : Inputs}

/-- The receive stream's move always appends exactly the arriving bytes, FRAME or not. -/
theorem arrive_eq (i : Inputs) (s : State) : arrive i s = .next (s.deliver i.rxBytes) := by
  unfold arrive
  split
  · rename_i instr h
    obtain ⟨items, c, rfl, _, hb⟩ := (decode_wire_iff _ _).mp h
    show execFrame items c s = _
    rw [execFrame, hb]
  · rfl

/-- The read access of a cycle changes the store port's outputs only. -/
theorem portReads_eq (i : Inputs) (s : State) :
    ∃ e r, portReads i s = .next { s with appErr := e, appRdata := r } := by
  unfold portReads
  split
  · rename_i h
    simp only [Bool.and_eq_true, Bool.not_eq_true'] at h
    exact exec_decodeStore_read h.2
  · exact ⟨s.appErr, s.appRdata, rfl⟩

/-- The write access of a cycle changes one slot of `OUT` at most, and `app_err`. -/
theorem portWrites_eq (i : Inputs) (s : State) :
    portWrites i s = .next s ∨
    i.appEn = true ∧ ∃ a v, decodeStore i.storeWord = .outw a v ∧
      portWrites i s =
        .next { s with outStore := s.outStore.setIfInBounds a.toNat v, appErr := !decide (a.toNat < 40) } := by
  unfold portWrites
  split
  · rename_i h
    simp only [Bool.and_eq_true] at h
    obtain ⟨a, v, h1, h2⟩ := exec_decodeStore_write (s := s) h.2
    exact .inr ⟨h.1, a, v, h1, h2⟩
  · exact .inl rfl

/-- A cycle without reset: the state the sequencer starts from, its move, and the write access after it. -/
theorem cycle_eq_next (hr : i.rst = false) (h : cycle i s = .next t) :
    ∃ e r u, sequencer (sequencerGoes i s) i
        { ((s.beginCycle i).deliver i.rxBytes) with appErr := e, appRdata := r } = .next u ∧
      portReads i ((s.beginCycle i).deliver i.rxBytes) =
        .next { ((s.beginCycle i).deliver i.rxBytes) with appErr := e, appRdata := r } ∧
      portWrites i u = .next t := by
  unfold cycle at h
  rw [if_neg (by simp [hr]), arrive_eq, andThen_next] at h
  obtain ⟨e, r, hp⟩ := portReads_eq i ((s.beginCycle i).deliver i.rxBytes)
  rw [hp, andThen_next] at h
  obtain ⟨u, hu, hw⟩ := andThen_eq_next.mp h
  exact ⟨e, r, u, hu, hp, hw⟩

/-- A step without reset is its read access, the sequencer's move and its write access, after the arrivals. -/
theorem step_eq (hr : s.lines.rst = false) :
    step s = andThen (portReads s.lines ((s.beginCycle s.lines).deliver s.lines.rxBytes)) fun s2 =>
      andThen (sequencer (sequencerGoes s.lines s) s.lines s2) fun s3 => portWrites s.lines s3 := by
  unfold step cycle
  rw [if_neg (by simp [hr]), arrive_eq, andThen_next]

/-- A reset step (R270). -/
theorem cycle_reset (hr : i.rst = true) : cycle i s = .next (((s.beginCycle i).deliver i.rxBytes).resetBlock) := by
  simp [cycle, hr]

/-- What the sequencer's move can be: nothing, the acceptance of a command, or the step of its phase. -/
theorem sequencer_eq_next {go : Bool} (h : sequencer go i s = .next t) :
    (s.phase = .idle ∧ i.cmdValid = false ∧ t = s) ∨
    (s.phase = .idle ∧ i.cmdValid = true ∧ exec (decodeCommand i.commandWord) s = .next t) ∨
    (s.phase ≠ .idle ∧ go = false ∧ t = s) ∨
    (s.phase ≠ .idle ∧ go = true ∧ phaseStep i.txReady s = .next t) := by
  unfold sequencer at h
  by_cases hp : s.phase = .idle
  · by_cases hv : i.cmdValid = true
    · simp only [hp, hv, if_true] at h
      exact .inr (.inl ⟨hp, hv, h⟩)
    · simp only [hp, if_true, hv, if_false, Bool.false_eq_true, Host.Outcome.next.injEq] at h
      exact .inl ⟨hp, by simpa using hv, h.symm⟩
  · by_cases hg : go = true
    · simp only [hp, if_false, hg, if_true] at h
      exact .inr (.inr (.inr ⟨hp, hg, h⟩))
    · simp only [hp, if_false, hg, Bool.false_eq_true, Host.Outcome.next.injEq] at h
      exact .inr (.inr (.inl ⟨hp, by simpa using hg, h.symm⟩))

/-- The sequencer never touches `OUT`, the time base, the store port's outputs, the lines to come or the parameters. -/
theorem sequencer_frame {go : Bool} (h : sequencer go i s = .next t) :
    t.outStore = s.outStore ∧ t.now = s.now ∧ t.appErr = s.appErr ∧ t.appRdata = s.appRdata ∧
    t.script = s.script ∧ t.rest = s.rest ∧ t.build = s.build ∧ t.draws = s.draws := by
  rcases sequencer_eq_next h with ⟨_, _, rfl⟩ | ⟨_, _, h⟩ | ⟨_, _, rfl⟩ | ⟨_, _, h⟩
  · simp
  · rcases exec_decodeCommand_eq_next h with ⟨_, h⟩ | ⟨c, _, h⟩ | ⟨d, _, h⟩ | ⟨_, rfl⟩
    · rcases execDecode_eq_next.mp h with ⟨_, rfl⟩ | ⟨_, rfl⟩
      · simp
      · split <;> simp
    · rcases execEncode_eq_next.mp h with ⟨_, rfl⟩ | ⟨_, rfl⟩
      · simp
      · split <;> simp
    · rcases execSetTimeout_eq_next.mp h with ⟨_, rfl⟩ | ⟨_, rfl⟩ <;> simp
    · simp
  · simp
  · unfold phaseStep at h
    split at h
    · cases h; simp
    · rcases stepBuild_eq_next.mp h with ⟨v, _, _, rfl⟩ | ⟨_, rfl⟩ <;> simp
    · rcases stepSendStart_eq_next.mp h with ⟨_, rfl⟩ | ⟨_, rfl⟩ <;> simp
    · rcases stepSendLength_eq_next.mp h with ⟨_, rfl⟩ | ⟨_, rfl⟩ <;> simp
    · obtain ⟨b, _, ⟨_, rfl⟩ | ⟨_, rfl⟩⟩ := stepSendPayload_eq_next.mp h
      · simp
      · split <;> simp
    · rcases stepSendChecksum_eq_next.mp h with ⟨_, rfl⟩ | ⟨_, rfl⟩ <;> simp
    · rcases stepSendEnd_eq_next.mp h with ⟨_, rfl⟩ | ⟨_, rfl⟩ <;> simp
    · rcases stepSync_eq_next.mp h with ⟨_, rfl⟩ | ⟨b, q, _, rfl⟩
      · simp
      · split
        · simp
        · split <;> simp
    · rcases stepLength_eq_next.mp h with ⟨b, q, _, rfl⟩ | ⟨_, rfl⟩ <;> split <;> simp
    · rw [stepBody_eq_next.mp h]
      split
      · simp
      · split <;> simp
    · rcases stepRead_eq_next.mp h with ⟨b, q, _, _, _, rfl⟩ | ⟨_, rfl⟩ <;> simp
    · obtain ⟨b, q, _, rfl⟩ := stepCompareChecksum_eq_next.mp h
      split <;> simp
    · obtain ⟨b, q, _, rfl⟩ := stepCompareEnd_eq_next.mp h
      split <;> simp
    · rcases stepApply_eq_next.mp h with ⟨id, v, _, _, _, rfl⟩ | ⟨_, rfl⟩
      · split <;> simp
      · simp

/-- The sequencer's moves with the accepting steps written out. -/
theorem sequencer_cases {go : Bool} (h : sequencer go i s = .next t) :
   t = s ∨
   (s.phase = .idle ∧ i.cmdValid = true ∧ (
      (decodeCommand i.commandWord = .decode ∧ t = if s.rxq = [] then s.raise .noData else s.armTimer.enter .dSync) ∨
      (∃ c, decodeCommand i.commandWord = .encode c ∧ t = if c.toNat ≤ 40 then
        ((s.latchLength (lengthOfCount c)).countReset.startCks).enter .eBuild
      else s.raise .encodeLengthError) ∨
      (∃ d, decodeCommand i.commandWord = .setTimeout d ∧ t = (s.writeTimeout d).raise .ok))) ∨
   (s.phase ≠ .idle ∧ go = true ∧ phaseStep i.txReady s = .next t) := by
  rcases sequencer_eq_next h with ⟨h1, _, rfl⟩ | ⟨h1, h2, h⟩ | ⟨_, _, rfl⟩ | ⟨h1, h2, h⟩
  · exact .inl rfl
  · rcases exec_decodeCommand_eq_next h with ⟨hd, h⟩ | ⟨c, hd, h⟩ | ⟨d, hd, h⟩ | ⟨_, rfl⟩
    · rcases execDecode_eq_next.mp h with ⟨h3, _⟩ | ⟨_, rfl⟩
      · exact absurd h1 h3
      · exact .inr (.inl ⟨h1, h2, .inl ⟨hd, rfl⟩⟩)
    · rcases execEncode_eq_next.mp h with ⟨h3, _⟩ | ⟨_, rfl⟩
      · exact absurd h1 h3
      · exact .inr (.inl ⟨h1, h2, .inr (.inl ⟨c, hd, rfl⟩)⟩)
    · rcases execSetTimeout_eq_next.mp h with ⟨h3, _⟩ | ⟨_, rfl⟩
      · exact absurd h1 h3
      · exact .inr (.inl ⟨h1, h2, .inr (.inr ⟨d, hd, rfl⟩)⟩)
    · exact .inl rfl
  · exact .inl rfl
  · exact .inr (.inr ⟨h1, h2, h⟩)

/-- Everything one step of an operation in progress can do. -/
theorem phaseStep_cases {ready : Bool} (hp : s.phase ≠ .idle) (h : phaseStep ready s = .next t) :
   (s.phase = .eBuild ∧ ((∃ v, s.index < s.itemCount ∧ s.readOut s.index = some v ∧
      t = (((s.writeItem s.index ⟨positionId s.cnt, v⟩).updateCks (positionId s.cnt)).updateCks v).countUp) ∨
    (s.itemCount ≤ s.index ∧ t = s.finishCks.enter .eStart))) ∨
   (∃ b, s.presentedByte = some b ∧
      (s.phase = .eStart ∨ s.phase = .eLen ∨ s.phase = .ePay ∨ s.phase = .eCks ∨ s.phase = .eEnd) ∧
      (ready = false ∧ t = s.offerTx b ∨ ready = true ∧
        (s.phase = .eStart ∧ t = (s.sendTx b).enter .eLen ∨
         s.phase = .eLen ∧ t = ((s.sendTx b).countReset).enter (if s.len = 0 then .eCks else .ePay) ∨
         s.phase = .ePay ∧ t = (if s.index + 1 = s.len.toNat then (s.sendTx b).enter .eCks else (s.sendTx b).countUp) ∨
         s.phase = .eCks ∧ t = (s.sendTx b).enter .eEnd ∨
         s.phase = .eEnd ∧ t = (s.sendTx b).raise .ok))) ∨
   (s.phase = .dSync ∧ (s.rxq = [] ∧ t = s.raise .serialBuffError ∨
    ∃ b q, s.rxq = b :: q ∧
      t = if b = startByte then (s.dropHead.armTimer).enter .dLen
          else if s.timedOut then s.dropHead.raise .timeoutError else s.dropHead)) ∨
   (s.phase = .dLen ∧ ((∃ b q, s.rxq = b :: q ∧
      t = if legalLength b then ((s.dropHead.latchLength b).armTimer).enter .dBody
          else (s.dropHead.latchLength b).raise .payloadError) ∨
    s.rxq = [] ∧ t = if s.timedOut then s.raise .timeoutError else s)) ∨
   (s.phase = .dBody ∧ t = if s.bodyArrived then s.countReset.startCks.enter .dRead
        else if s.timedOut then s.raise .timeoutError else s) ∨
   (s.phase = .dRead ∧ ((∃ b q, s.index < s.len.toNat ∧ s.index < 80 ∧ s.rxq = b :: q ∧
      t = ((s.dropHead.writeBuf s.index b).updateCks b).countUp) ∨
    s.len.toNat ≤ s.index ∧ t = s.finishCks.enter .dCks)) ∨
   (s.phase = .dCks ∧ ∃ b q, s.rxq = b :: q ∧
      t = if b = s.lastCks then s.dropHead.enter .dEnd else s.dropHead.raise .checksumError) ∨
   (s.phase = .dEnd ∧ ∃ b q, s.rxq = b :: q ∧
      t = if b = endByte then s.dropHead.countReset.enter .dApply else s.dropHead.raise .endByteError) ∨
   (s.phase = .dApply ∧ ((∃ id v, s.index < s.itemCount ∧ s.pbuf[2 * s.index]? = some id ∧
      s.pbuf[2 * s.index + 1]? = some v ∧
      t = (if idInRange id then s.writeIn id.toNat v else s).countUp) ∨
    s.itemCount ≤ s.index ∧ t = s.raise .ok)) := by
  unfold phaseStep at h
  split at h
  · rename_i h1; exact absurd h1 hp
  · rename_i h1; exact .inl ⟨h1, stepBuild_eq_next.mp h⟩
  · rename_i h1
    refine .inr (.inl ⟨startByte, by simp [State.presentedByte, h1], by simp [h1], ?_⟩)
    rcases stepSendStart_eq_next.mp h with ⟨h2, rfl⟩ | ⟨h2, rfl⟩
    · exact .inl ⟨h2, rfl⟩
    · exact .inr ⟨h2, .inl ⟨h1, rfl⟩⟩
  · rename_i h1
    refine .inr (.inl ⟨s.len, by simp [State.presentedByte, h1], by simp [h1], ?_⟩)
    rcases stepSendLength_eq_next.mp h with ⟨h2, rfl⟩ | ⟨h2, rfl⟩
    · exact .inl ⟨h2, rfl⟩
    · exact .inr ⟨h2, .inr (.inl ⟨h1, rfl⟩)⟩
  · rename_i h1
    obtain ⟨b, hb, h⟩ := stepSendPayload_eq_next.mp h
    refine .inr (.inl ⟨b, by simp [State.presentedByte, h1, hb], by simp [h1], ?_⟩)
    rcases h with ⟨h2, rfl⟩ | ⟨h2, rfl⟩
    · exact .inl ⟨h2, rfl⟩
    · exact .inr ⟨h2, .inr (.inr (.inl ⟨h1, rfl⟩))⟩
  · rename_i h1
    refine .inr (.inl ⟨s.lastCks, by simp [State.presentedByte, h1], by simp [h1], ?_⟩)
    rcases stepSendChecksum_eq_next.mp h with ⟨h2, rfl⟩ | ⟨h2, rfl⟩
    · exact .inl ⟨h2, rfl⟩
    · exact .inr ⟨h2, .inr (.inr (.inr (.inl ⟨h1, rfl⟩)))⟩
  · rename_i h1
    refine .inr (.inl ⟨endByte, by simp [State.presentedByte, h1], by simp [h1], ?_⟩)
    rcases stepSendEnd_eq_next.mp h with ⟨h2, rfl⟩ | ⟨h2, rfl⟩
    · exact .inl ⟨h2, rfl⟩
    · exact .inr ⟨h2, .inr (.inr (.inr (.inr ⟨h1, rfl⟩)))⟩
  · rename_i h1; exact .inr (.inr (.inl ⟨h1, stepSync_eq_next.mp h⟩))
  · rename_i h1; exact .inr (.inr (.inr (.inl ⟨h1, stepLength_eq_next.mp h⟩)))
  · rename_i h1; exact .inr (.inr (.inr (.inr (.inl ⟨h1, stepBody_eq_next.mp h⟩))))
  · rename_i h1; exact .inr (.inr (.inr (.inr (.inr (.inl ⟨h1, stepRead_eq_next.mp h⟩)))))
  · rename_i h1; exact .inr (.inr (.inr (.inr (.inr (.inr (.inl ⟨h1, stepCompareChecksum_eq_next.mp h⟩))))))
  · rename_i h1; exact .inr (.inr (.inr (.inr (.inr (.inr (.inr (.inl ⟨h1, stepCompareEnd_eq_next.mp h⟩)))))))
  · rename_i h1; exact .inr (.inr (.inr (.inr (.inr (.inr (.inr (.inr ⟨h1, stepApply_eq_next.mp h⟩)))))))

/-- Everything one step without reset can do: the sequencer's move from the state after arrivals and reads, and an
OUTW after it at most. -/
theorem step_cases (hr : s.lines.rst = false) (h : step s = .next t) :
   ∃ e r u, sequencer (sequencerGoes s.lines s) s.lines
       { ((s.beginCycle s.lines).deliver s.lines.rxBytes) with appErr := e, appRdata := r } = .next u ∧
     (t = u ∨ s.lines.appEn = true ∧ ∃ a v, decodeStore s.lines.storeWord = .outw a v ∧
       t = { u with outStore := u.outStore.setIfInBounds a.toNat v, appErr := !decide (a.toNat < 40) }) := by
  obtain ⟨e, r, u, hu, hp, hw⟩ := cycle_eq_next hr h
  refine ⟨e, r, u, hu, ?_⟩
  rcases portWrites_eq s.lines u with h1 | ⟨h1, a, v, h2, h3⟩
  · rw [h1] at hw; cases hw; exact .inl rfl
  · rw [h3] at hw; cases hw; exact .inr ⟨h1, a, v, h2, rfl⟩

end Sys2Proof.Machine
end

