-- ==== Sys2Proof/Laws/PerInstr.lean ====
section
/-! SUPPORT. Laws stated per instruction: one lemma per constructor of Instr. -/

namespace Sys2Proof.Laws.PortFormat

open Sys2Proof Sys2Proof.Machine

/-- The two top bits of each operation's word (R99, R100); a frame has none. -/
def opcode : Instr → BitVec 2
  | .decode => 0b00
  | .encode _ => 0b01
  | .setTimeout _ => 0b10
  | .cmdReserved => 0b11
  | .outw _ _ => 0b01
  | .outr _ => 0b00
  | .inr _ => 0b10
  | .storeReserved => 0b11
  | .frame _ _ => 0b00

/-- The encoding carries the operation's code, and a frame is 4 to 84 bytes long (R91, R99, R100). -/
def Statement (i : Instr) : Prop :=
  i.wellFormed = true →
    match Sys2Proof.encode i with
    | .command w => w.extractLsb' 16 2 = opcode i
    | .store w => w.extractLsb' 14 2 = opcode i
    | .wire bytes => 4 ≤ bytes.length ∧ bytes.length ≤ 84

theorem decode : Statement .decode := fun _ => (field_commandWord _ _).1

theorem encode (count : BitVec 16) : Statement (.encode count) := fun _ => (field_commandWord _ _).1

theorem setTimeout (duration : BitVec 16) : Statement (.setTimeout duration) := fun _ => (field_commandWord _ _).1

theorem cmdReserved : Statement .cmdReserved := fun _ => (field_commandWord _ _).1

theorem outw (addr : BitVec 6) (data : Byte) : Statement (.outw addr data) := fun _ => (field_storeWord _ _ _ _).1

theorem outr (addr : BitVec 6) : Statement (.outr addr) := fun _ => (field_storeWord _ _ _ _).1

theorem inr (addr : BitVec 6) : Statement (.inr addr) := fun _ => (field_storeWord _ _ _ _).1

theorem storeReserved : Statement .storeReserved := fun _ => (field_storeWord _ _ _ _).1

theorem frame (items : List Item) (checksum : Byte) : Statement (.frame items checksum) := by
  intro h
  have hl : items.length ≤ 40 := by simpa [Instr.wellFormed] using h
  show 4 ≤ (frameBytes items checksum).length ∧ (frameBytes items checksum).length ≤ 84
  rw [length_frameBytes]
  omega

end Sys2Proof.Laws.PortFormat
end

