-- ==== Sys2Proof/Laws/Run.lean ====
section
/-! SUPPORT. Laws of runs: how a run composes, what every step of it keeps, and the first response of a run. -/

namespace Sys2Proof.Machine

variable {s t : State}

@[simp] theorem run_zero (s : State) : run 0 s = .next s := rfl

theorem run_succ (k : Nat) (s : State) : run (k + 1) s = andThen (step s) (run k) := rfl

/-- A run may also be taken apart at its last step. -/
theorem run_succ_last (k : Nat) (s : State) : run (k + 1) s = andThen (run k s) step := by
  induction k generalizing s with
  | zero => simp only [run_succ, run_zero, andThen_next]; cases step s <;> rfl
  | succ k ih =>
    rw [run_succ (k + 1), run_succ k]
    cases h : step s with
    | next u => simp only [andThen_next]; exact ih u
    | fault f => rfl
    | refused x => rfl

/-- Every step takes its lines from the script and keeps the lines after it and the build parameters. -/
theorem step_script (h : step s = .next t) : t.script = s.script.tail ∧ t.rest = s.rest ∧ t.build = s.build := by
  by_cases hr : s.lines.rst = true
  · rw [step, cycle_reset hr] at h
    cases h
    exact ⟨rfl, rfl, rfl⟩
  · obtain ⟨e, r, u, hu, ht⟩ := step_cases (by simpa using hr) h
    have hf := sequencer_frame hu
    rcases ht with rfl | ⟨_, _, _, _, rfl⟩
    · exact ⟨hf.2.2.2.2.1, hf.2.2.2.2.2.1, hf.2.2.2.2.2.2.1⟩
    · exact ⟨hf.2.2.2.2.1, hf.2.2.2.2.2.1, hf.2.2.2.2.2.2.1⟩

/-- The lines of the next cycle keep to what every cycle to come keeps to. -/
theorem scriptAll_lines {p : Inputs → Prop} (h : s.scriptAll p) : p s.lines := by
  unfold State.lines
  cases hs : s.script with
  | nil => exact h.2
  | cons i rest => exact h.1 i (by simp [hs])

/-- What every cycle to come keeps to, it keeps to after a step. -/
theorem scriptAll_step {p : Inputs → Prop} (h : s.scriptAll p) (hs : step s = .next t) : t.scriptAll p := by
  obtain ⟨hscript, hrest, _⟩ := step_script hs
  rw [State.scriptAll, hscript, hrest]
  exact ⟨fun i hi => h.1 i (List.mem_of_mem_tail hi), h.2⟩

/-- What every step keeps, every run keeps. -/
theorem run_keeps {P : State → Prop} (hstep : ∀ u v, P u → step u = .next v → P v) {k : Nat}
    (h0 : P s) (h : run k s = .next t) : P t := by
  induction k generalizing s with
  | zero => cases h; exact h0
  | succ k ih =>
    obtain ⟨u, hu, hk⟩ := andThen_eq_next.mp h
    exact ih (hstep s u h0 hu) hk

/-- The first response of a run: `P` holds as long as no response has come, and the step that responds gives `Q`. -/
theorem of_respondsAt {P Q : State → Prop}
    (hstep : ∀ u v, P u → step u = .next v → (v.resp = none ∧ P v) ∨ (v.resp ≠ none ∧ Q v))
    {k : Nat} {status : Status} (h0 : P s) (h : s.respondsAt k t status) : Q t := by
  obtain ⟨hk, hrun, hresp, hsilent⟩ := h
  induction k generalizing s with
  | zero => exact absurd hk (Nat.lt_irrefl 0)
  | succ k ih =>
    obtain ⟨u, hu, hrest⟩ := andThen_eq_next.mp hrun
    rcases hstep s u h0 hu with ⟨_, hP⟩ | ⟨hne, hQ⟩
    · rcases Nat.eq_zero_or_pos k with rfl | hpos
      · rw [run_zero] at hrest
        cases hrest
        simp_all
      · refine ih hP hpos hrest ?_
        intro j v hj hjk hv
        exact hsilent (j + 1) v (Nat.succ_pos j) (Nat.succ_lt_succ hjk) (by rw [run_succ, hu]; exact hv)
    · rcases Nat.eq_zero_or_pos k with rfl | hpos
      · rw [run_zero] at hrest
        cases hrest
        exact hQ
      · exact absurd (hsilent 1 u Nat.one_pos (Nat.succ_lt_succ hpos) (by rw [run_succ, hu]; rfl)) hne

/-- A run that responds later: one silent step, then a run that responds. -/
theorem respondsAt_step {u : State} {k : Nat} {status : Status} (hu : step s = .next u) (hn : u.resp = none)
    (h : u.respondsAt k t status) : s.respondsAt (k + 1) t status := by
  obtain ⟨_, hrun, hresp, hsilent⟩ := h
  refine ⟨Nat.succ_pos k, by rw [run_succ, hu]; exact hrun, hresp, ?_⟩
  intro j v hj hjk hv
  cases j with
  | zero => exact absurd hj (Nat.lt_irrefl 0)
  | succ j =>
    rw [run_succ, hu, andThen_next] at hv
    rcases Nat.eq_zero_or_pos j with rfl | hpos
    · cases hv; exact hn
    · exact hsilent j v hpos (Nat.lt_of_succ_lt_succ hjk) hv

/-- A step that responds is the first response. -/
theorem respondsAt_one {status : Status} (hu : step s = .next t) (h : t.resp = some status) :
    s.respondsAt 1 t status := by
  refine ⟨Nat.one_pos, by rw [run_succ, hu]; rfl, h, ?_⟩
  intro j v hj hj1
  exact absurd hj (by omega)

end Sys2Proof.Machine
end

