-- ==== Sys2Proof/Laws/Wire.lean ====
section
/-! SUPPORT. Laws of the functional forms of ENCODE, APPLY and DECODE (R129, R154, R181). -/

namespace Sys2Proof.Machine

@[simp] theorem length_denseItems (k : Nat) (o : List Byte) : (denseItems k o).length = o.length := by
  induction o generalizing k with
  | nil => rfl
  | cons v o ih => simp [denseItems, ih]

/-- The pairs of two runs of values, the second numbered on from the first. -/
theorem denseItems_append (k : Nat) (a b : List Byte) :
    denseItems k (a ++ b) = denseItems k a ++ denseItems (k + a.length) b := by
  induction a generalizing k with
  | nil => rfl
  | cons v a ih => simp [denseItems, ih, Nat.add_assoc, Nat.add_comm 1]

/-- One more value: one more pair of payload bytes, its position and itself (R122). -/
theorem payloadBytes_denseItems_snoc (o : List Byte) (v : Byte) :
    payloadBytes (denseItems 0 (o ++ [v])) = payloadBytes (denseItems 0 o) ++ [BitVec.ofNat 8 o.length, v] := by
  rw [denseItems_append, payloadBytes_append]
  simp [denseItems, payloadBytes]

theorem length_encodeFrame (alg : CksAlg) (o : List Byte) : (encodeFrame alg o).length = 2 * o.length + 4 := by
  simp [encodeFrame]

/-- The scan of DECODE on bytes that begin with the start sentinel discards nothing (R142). -/
theorem dropWhile_start (q : List Byte) : (startByte :: q).dropWhile (· != startByte) = startByte :: q := by
  simp

/-- DECODE's function on one whole frame with the right checksum, and bytes after it (R154). -/
theorem decodeBuffered_frameBytes {alg : CksAlg} {items : List Item} (h : items.length ≤ 40) (rest : List Byte)
    (store : Vector Byte numSlots) :
    decodeBuffered alg (frameBytes items (checksum alg (payloadBytes items)) ++ rest) store =
      .responds .ok rest (applyPayload (payloadBytes items) store) (some (checksum alg (payloadBytes items))) := by
  have hl := legalLength_ofNat h
  have hn : (BitVec.ofNat 8 (2 * items.length)).toNat = (payloadBytes items).length := by simp; omega
  simp only [frameBytes, List.cons_append, List.append_assoc, decodeBuffered, dropWhile_start, hl, if_true, hn]
  rw [if_pos (by simp)]
  simp [decodeBody]

/-- Applying dense pairs copies the values to the slots from `k` on and leaves the others (R93, R181). -/
theorem applyPayload_denseItems {k : Nat} {o : List Byte} (h : k + o.length ≤ 40) (store : Vector Byte numSlots) (m : Nat) :
    (applyPayload (payloadBytes (denseItems k o)) store)[m]? =
      if k ≤ m ∧ m < k + o.length then o[m - k]? else store[m]? := by
  induction o generalizing k store with
  | nil => simp [denseItems, payloadBytes, applyPayload]
  | cons v o ih =>
    simp only [List.length_cons] at h
    have hk : (BitVec.ofNat 8 k : Byte).toNat = k := by simp; omega
    have hk40 : k < numSlots := by show k < 40; omega
    rw [denseItems, payloadBytes, applyPayload, ih (by omega), hk, if_pos hk40]
    by_cases hm : m = k
    · subst hm
      rw [if_neg (by omega), if_pos (by simp), Vector.getElem?_setIfInBounds_self_of_lt hk40]
      simp
    · rw [Vector.getElem?_setIfInBounds_ne (by omega)]
      by_cases h2 : k + 1 ≤ m ∧ m < k + 1 + o.length
      · rw [if_pos h2, if_pos (by simp; omega)]
        obtain ⟨j, rfl⟩ : ∃ j, m = k + 1 + j := ⟨m - (k + 1), by omega⟩
        rw [show k + 1 + j - (k + 1) = j by omega, show k + 1 + j - k = j + 1 by omega, List.getElem?_cons_succ]
      · rw [if_neg h2, if_neg (by simp; omega)]

end Sys2Proof.Machine
end

