-- ==== Sys2Proof/Tests/Slice0.lean ====
section
/-! SUPPORT. The model's own tests. Expected values come from 95_test_vectors.md and the rules' examples, named in each
comment; the witnesses show, for each statement with hypotheses, a state that meets them together. -/

namespace Sys2Proof.Tests

open Sys2Proof Sys2Proof.Machine

/-! ### Small states -/

/-- An idle block: SUM2C, `OUT` = 10, 20, 30, ..., `IN` = 0xEE everywhere, `TIMEOUT` = 10, `now` = 100. -/
def calm : State :=
  { outStore := bytesFrom 40 fun i => BitVec.ofNat 8 (10 * (i + 1)), inStore := bytesFrom 40 fun _ => 0xEE
    timeout := 10, lastCks := 0x00, acc := 0x55, phase := .idle, t0 := 0, len := 0x33, cnt := 0x44
    pbuf := bytesFrom 80 fun _ => 0xCC, rxq := [], txq := [], now := 100, resp := none, appErr := false
    appRdata := none, rxPop := false, tx := none, txTaken := false, script := []
    rest := Inputs.quiet, build := ⟨.sum2c, .peripheral, 1000⟩, draws := 0 }

/-- A cycle that presents a command. -/
def command (op : BitVec 2) (arg : BitVec 16) : Inputs :=
  { Inputs.quiet with cmdValid := true, cmdOp := op, cmdArg := arg }

/-- A cycle that makes a store access. -/
def access (sel we : Bool) (addr : BitVec 6) (wdata : Byte) : Inputs :=
  { Inputs.quiet with appEn := true, appSel := sel, appWe := we, appAddr := addr, appWdata := wdata }

/-- ENCODE in `E_BUILD` with pair 0 to build. -/
def building : State := { calm with phase := .eBuild, len := 2, cnt := 0, acc := 0 }

/-- ENCODE in `E_PAY` with its second byte, 0x05, waiting for the stream. -/
def stalled : State :=
  { calm with
    phase := .ePay, len := 2, cnt := 1, pbuf := bytesFrom 80 fun i => if i = 1 then 0x05 else 0x00
    lastCks := 0xFB, tx := some 0x05, txTaken := false, script := [{ Inputs.quiet with txReady := false }] }

/-- DECODE in `D_APPLY` with the pair (0, 5) to apply. -/
def applying : State :=
  { calm with phase := .dApply, len := 2, cnt := 0, pbuf := bytesFrom 80 fun i => if i = 1 then 0x05 else 0x00 }

/-- The next state, or the same state where there is none. -/
def nextOf (r : Result) (s : State) : State :=
  match r with
  | .next t => t
  | .fault _ => s
  | .refused _ => s

/-- An answer is a next state. -/
def isNext (r : Result) : Bool :=
  match r with
  | .next _ => true
  | .fault _ => false
  | .refused _ => false

theorem eq_next_of_isNext {r : Result} (s : State) (h : isNext r = true) : r = .next (nextOf r s) := by
  cases r <;> simp_all [isNext, nextOf]

/-- No response in the next `k` steps. -/
def quietFor : Nat → State → Bool
  | 0, _ => true
  | k + 1, s =>
    match step s with
    | .next t => t.resp.isNone && quietFor k t
    | .fault _ => true
    | .refused _ => true

theorem silentBefore_of_quietFor {k : Nat} {s : State} (h : quietFor k s = true) : s.silentBefore (k + 1) := by
  induction k generalizing s with
  | zero => intro j t h0 h1; omega
  | succ k ih =>
    intro j t h0 hj ht
    cases j with
    | zero => omega
    | succ j =>
      rw [run_succ] at ht
      obtain ⟨u, hu, hr⟩ := andThen_eq_next.mp ht
      simp only [quietFor, hu, Bool.and_eq_true, Option.isNone_iff_eq_none] at h
      cases j with
      | zero => cases hr; exact h.1
      | succ j => exact ih h.2 (j + 1) t (Nat.succ_pos j) (by omega) hr

/-- The first response of the run from `s` comes after `k + 1` steps and is `status`. -/
def respondsCheck (k : Nat) (s : State) (status : Status) : Bool :=
  isNext (run (k + 1) s) && quietFor k s && decide ((nextOf (run (k + 1) s) s).resp = some status)

theorem respondsAt_of_check {k : Nat} {s : State} {status : Status} (h : respondsCheck k s status = true) :
    s.respondsAt (k + 1) (nextOf (run (k + 1) s) s) status := by
  simp only [respondsCheck, Bool.and_eq_true, decide_eq_true_eq] at h
  exact ⟨Nat.succ_pos k, eq_next_of_isNext s h.1.1, h.2, silentBefore_of_quietFor h.1.2⟩

/-! ### WellFormed -/

/-- A frame of 41 pairs is refused, one of 40 is not (R92). -/
theorem test_wellFormed_frame : (Instr.frame (List.replicate 41 ⟨0, 0⟩) 0).wellFormed = false ∧
    (Instr.frame (List.replicate 40 ⟨0, 0⟩) 0).wellFormed = true := by decide

/-! ### Decoding words written out from R90, R99, R100 and table 2.7 -/

theorem test_decode_decode : decode (.command 0b00_1111111111111111#18) = .ok .decode := by decide
theorem test_decode_encode : decode (.command 0x10100#18) = .ok (.encode 256) := by decide
theorem test_decode_setTimeout : decode (.command 0x2FFFF#18) = .ok (.setTimeout 65535) := by decide
theorem test_decode_cmdReserved : decode (.command 0b11_0000000000000001#18) = .ok .cmdReserved := by decide
theorem test_decode_outw : decode (.store 0x6801#16) = .ok (.outw 40 1) := by decide
theorem test_decode_outr : decode (.store 0b00_000111_10101010#16) = .ok (.outr 7) := by decide
theorem test_decode_inr : decode (.store 0xA700#16) = .ok (.inr 39) := by decide
theorem test_decode_storeReserved : decode (.store 0b11_000010_11111111#16) = .ok .storeReserved := by decide
theorem test_decode_frame : decode (.wire [0x7E, 0x02, 0x28, 0x55, 0x83, 0xEF]) = .ok (.frame [⟨0x28, 0x55⟩] 0x83) := by
  decide

/-- What is no frame is refused by name (R92, R97; V-D5, V-D6, V-D10). -/
theorem test_decode_refusals :
    decode (.wire [0x7E, 0x03, 0x01, 0x02, 0x03]) = .error .lengthOdd ∧
    decode (.wire [0x7E, 0x52, 0x01, 0x02]) = .error .lengthTooLarge ∧
    decode (.wire [0x00, 0x00, 0x00, 0xEF]) = .error .noStartSentinel ∧
    decode (.wire [0x7E, 0x02, 0x00, 0x05, 0xFB, 0xEE]) = .error .noEndSentinel ∧
    decode (.wire [0x7E, 0x02, 0x00]) = .error .frameTooShort ∧
    decode (.wire [0x7E, 0x00, 0x00, 0xEF, 0x7E]) = .error .bytesAfterFrame := by decide

/-- The table numbers a frame's first byte as bits 7..0. -/
theorem test_decodeTableWord :
    decodeTableWord 16 0x400A = some (.outw 0 10) ∧ decodeTableWord 24 0x10003 = some (.encode 3) ∧
    decodeTableWord 32 0xEF00007E = some (.frame [] 0) := by decide

/-! ### The checksum engine -/

/-- The worked trace of R205 for `acc` = 0x00, `b` = 0x01. -/
theorem test_crc_trace : (List.range 9).map (fun n => crcShifts n 0x01) =
    [0x01, 0x8C, 0x46, 0x23, 0x9D, 0xC2, 0x61, 0xBC, 0x5E] := by decide

/-- Rows of the table of R208. -/
theorem test_checksum_values :
    checksum .sum2c [0x31, 0x32, 0x33, 0x34, 0x35, 0x36, 0x37, 0x38, 0x39] = 0x23 ∧
    checksum .crc8 [0x31, 0x32, 0x33, 0x34, 0x35, 0x36, 0x37, 0x38, 0x39] = 0xA1 ∧
    checksum .sum2c [0x00, 0x0A, 0x01, 0x14, 0x02, 0x1E] = 0xC1 ∧
    checksum .crc8 [0x00, 0x0A, 0x01, 0x14, 0x02, 0x1E] = 0xF5 ∧
    checksum .sum2c [] = 0x00 ∧ checksum .crc8 [0x80, 0x80] = 0xA3 := by decide +kernel

/-! ### The results of whole operations as functions (V-E3, V-D9, V-D12, V-A1) -/

theorem test_encodeFrame : encodeFrame .crc8 [10, 20, 30] =
    [0x7E, 0x06, 0x00, 0x0A, 0x01, 0x14, 0x02, 0x1E, 0xF5, 0xEF] := by decide +kernel

theorem test_decodeBuffered_checksum :
    decodeBuffered .sum2c [0x7E, 0x02, 0x00, 0x05, 0xFA, 0xEF] calm.inStore =
      .responds .checksumError [0xEF] calm.inStore (some 0xFB) := by decide

theorem test_applyPayload : (applyPayload [0x05, 0xAA, 0x05, 0xBB, 0x28, 0x01] calm.inStore)[5]? = some 0xBB := by decide

/-! ### One step of each operation -/

/-- V-A8. -/
theorem test_outw : (nextOf (exec (.outw 39 0x99) calm) calm).readOut 39 = some 0x99 := by decide
/-- V-A9. -/
theorem test_outw_rejected : (nextOf (exec (.outw 40 1) calm) calm).appErr = true := by decide
/-- V-A10. -/
theorem test_outr_rejected : (nextOf (exec (.outr 63) calm) calm).appRdata = some 0x00 ∧
    (nextOf (exec (.outr 63) calm) calm).appErr = true := by decide
/-- `OUT[2]` = 30 in `calm`. -/
theorem test_outr : (nextOf (exec (.outr 2) calm) calm).appRdata = some 30 := by decide
/-- V-A13: the stores are independent. -/
theorem test_inr : (nextOf (exec (.inr 2) calm) calm).appRdata = some 0xEE := by decide
/-- V-A10. -/
theorem test_inr_rejected : (nextOf (exec (.inr 40) calm) calm).appErr = true := by decide
/-- V-A11. -/
theorem test_storeReserved : (nextOf (exec .storeReserved calm) calm).appErr = true ∧
    (nextOf (exec .storeReserved calm) calm).readIn 2 = some 0xEE := by decide
/-- V-P2. -/
theorem test_setTimeout : (nextOf (step { calm with script := [command 0b10 500] }) calm).timeout = 500 ∧
    (nextOf (step { calm with script := [command 0b10 500] }) calm).resp = some .ok := by decide
/-- R223. -/
theorem test_cmdReserved : nextOf (exec .cmdReserved calm) calm = calm := by decide
/-- R121 for `count` = 40. -/
theorem test_encode : (nextOf (exec (.encode 40) calm) calm).len = 0x50 ∧
    (nextOf (exec (.encode 40) calm) calm).phase = .eBuild := by decide
/-- V-E8. -/
theorem test_encode_refused : (nextOf (exec (.encode 256) calm) calm).resp = some .encodeLengthError := by decide
/-- V-D2. -/
theorem test_decode_noData : (nextOf (exec .decode calm) calm).resp = some .noData := by decide
/-- R141: `T0` is `now`. -/
theorem test_decode_accept : (nextOf (exec .decode { calm with rxq := [0x7E] }) calm).t0 = 100 ∧
    (nextOf (exec .decode { calm with rxq := [0x7E] }) calm).phase = .dSync := by decide
/-- R33: a frame joins the tail. -/
theorem test_frame : (nextOf (exec (.frame [⟨0, 5⟩] 0xFB) { calm with rxq := [0xAA] }) calm).rxq =
    [0xAA, 0x7E, 0x02, 0x00, 0x05, 0xFB, 0xEF] := by decide

/-! ### Single steps of the phases -/

/-- V-T12: the second scan step, `Elapsed()` = 1 > 0. -/
theorem test_sync_timeout :
    (nextOf (step { calm with
      phase := .dSync, timeout := 0, t0 := 100, rxq := [0x00, 0x00], script := [{ Inputs.quiet with tick := true }] }) calm).resp =
      some .timeoutError := by decide

/-- V-T13: the sentinel is taken before the timeout is looked at. -/
theorem test_sync_sentinel :
    (nextOf (step { calm with phase := .dSync, timeout := 0, t0 := 95, rxq := [0x7E, 0x00] }) calm).t0 = 100 ∧
    (nextOf (step { calm with phase := .dSync, timeout := 0, t0 := 95, rxq := [0x7E, 0x00] }) calm).phase = .dLen := by
  decide

/-- V-T11: `Elapsed()` wraps; at 10 of 10 the wait goes on. -/
theorem test_elapsed_wraps :
    (nextOf (step { calm with phase := .dLen, t0 := 0xFFFA, now := 0x0004 }) calm).phase = .dLen ∧
    (nextOf (step { calm with phase := .dLen, t0 := 0xFFFA, now := 0x0005 }) calm).resp = some .timeoutError := by decide

/-- V-D7: a second 0x7E is the length 126. -/
theorem test_length_illegal :
    (nextOf (step { calm with phase := .dLen, rxq := [0x7E, 0x02] }) calm).resp = some .payloadError := by decide

/-- R146: with LEN = 80 the body is there at 82 bytes and not at 81. -/
theorem test_body_boundary :
    (nextOf (step { calm with phase := .dBody, len := 80, rxq := List.replicate 82 0 }) calm).phase = .dRead ∧
    (nextOf (step { calm with phase := .dBody, len := 80, t0 := 100, rxq := List.replicate 81 0 }) calm).phase = .dBody := by
  decide

/-- V-D9: the end byte stays in RXQ. -/
theorem test_checksum_error :
    (nextOf (step { calm with phase := .dCks, len := 2, lastCks := 0xFB, rxq := [0xFA, 0xEF] }) calm).resp =
      some .checksumError ∧
    (nextOf (step { calm with phase := .dCks, len := 2, lastCks := 0xFB, rxq := [0xFA, 0xEF] }) calm).rxq = [0xEF] := by
  decide

/-- V-A3, V-A4: id 40 is skipped, id 39 applied. -/
theorem test_apply_ids :
    (nextOf (step { applying with pbuf := bytesFrom 80 fun i => if i = 0 then 0x28 else 0x55 }) calm).inStore = calm.inStore ∧
    (nextOf (step { applying with pbuf := bytesFrom 80 fun i => if i = 0 then 0x27 else 0x99 }) calm).readIn 39 =
      some 0x99 := by decide

/-- V-P6: with `tx_ready` = 0 the byte stays presented and the phase stays. -/
theorem test_transmit_stall :
    (nextOf (step stalled) calm).tx = some 0x05 ∧ (nextOf (step stalled) calm).phase = .ePay := by decide

/-- V-P9: reset during the stall. -/
theorem test_reset_in_stall :
    (nextOf (step { stalled with txq := [0x7E], script := [{ Inputs.quiet with rst := true }] }) calm).phase = .idle ∧
    (nextOf (step { stalled with txq := [0x7E], script := [{ Inputs.quiet with rst := true }] }) calm).txq = [0x7E] := by
  decide

/-! ### Witnesses: the hypotheses of each statement can be met -/

theorem witness_CommandPatternsRead :
    (0x0FFFF#18 &&& 0x30000#18 = 0x00000#18) ∧ (0x10029#18 &&& 0x30000#18 = 0x10000#18) ∧
    (0x201F4#18 &&& 0x30000#18 = 0x20000#18) ∧ (0x3FFFF#18 &&& 0x30000#18 = 0x30000#18) := by decide

theorem witness_StorePatternsRead :
    (0x6799#16 &&& 0xC000#16 = 0x4000#16) ∧ (0x3F00#16 &&& 0xC000#16 = 0x0000#16) ∧
    (0xA800#16 &&& 0xC000#16 = 0x8000#16) ∧ (0xFFFF#16 &&& 0xC000#16 = 0xC000#16) := by decide

theorem witness_DecodeOfEncode : (Instr.frame (List.replicate 40 ⟨1, 2⟩) 3).wellFormed = true ∧
    (Instr.encode 0xFFFF).wellFormed = true ∧ (Instr.outw 63 0xFF).wellFormed = true := by decide

theorem witness_EncodeOfDecodedWire :
    decode (.wire [0x7E, 0x00, 0x00, 0xEF]) = .ok (.frame [] 0x00) := by decide

theorem witness_StepRunsPresentedCommand : ∃ (s : State) (i : Instr), s.phase = .idle ∧ s.lines.rst = false ∧
    s.lines.appEn = false ∧ s.lines.cmdValid = true ∧ decode (.command s.lines.commandWord) = .ok i :=
  ⟨{ calm with script := [command 0b01 3] }, .encode 3, by decide⟩

theorem witness_StepRunsPresentedAccess : ∃ (s : State) (i : Instr), s.lines.rst = false ∧ s.lines.appEn = true ∧
    (s.phase = .idle ∧ s.lines.cmdValid = false ∨ s.phase ≠ .idle ∧ sequencerGoes s.lines s = false) ∧
    decode (.store s.lines.storeWord) = .ok i :=
  ⟨{ building with script := [{ access false true 39 0x99 with seqRun := false }] }, .outw 39 0x99, by decide⟩

theorem witness_StepRunsArrivingFrame : ∃ (s : State) (i : Instr), s.lines.rst = false ∧ s.lines.appEn = false ∧
    (s.phase = .idle ∧ s.lines.cmdValid = false ∨ s.phase ≠ .idle ∧ sequencerGoes s.lines s = false) ∧
    decode (.wire s.lines.rxBytes) = .ok i :=
  ⟨{ calm with script := [{ Inputs.quiet with rxBytes := [0x7E, 0x00, 0x00, 0xEF] }] }, .frame [] 0x00, by decide⟩

theorem witness_StepRunsPhase : ∃ s : State, s.lines.rst = false ∧ s.lines.appEn = false ∧ s.phase ≠ .idle ∧
    sequencerGoes s.lines s = true := ⟨building, by decide⟩

theorem witness_WithFetchWordRunsTheWord : ∃ (s : State) (nbits w : Nat) (i : Instr),
    decodeTableWord nbits w = some i ∧ s.txStalled = false :=
  ⟨building, 24, 0x10003, .encode 3, by decide⟩

theorem witness_SameStepReadsPrecedeWrites : ∃ s t : State, s.lines.rst = false ∧ s.lines.appEn = true ∧
    s.lines.seqRun = true ∧ step s = .next t ∧ s.phase = .eBuild ∧ s.index < s.itemCount ∧ s.itemCount ≤ 40 ∧
    decodeStore s.lines.storeWord = .outw 0 0x99 :=
  ⟨{ building with script := [access false true 0 0x99] }, _, by decide, by decide, by decide,
    eq_next_of_isNext calm (by decide), by decide⟩

theorem witness_SameStepReadsPrecedeWrites_inr : ∃ s t : State, s.lines.rst = false ∧ s.lines.appEn = true ∧
    s.lines.seqRun = true ∧ step s = .next t ∧ s.phase = .dApply ∧ decodeStore s.lines.storeWord = .inr 39 :=
  ⟨{ applying with script := [access true false 39 0] }, _, by decide, by decide, by decide,
    eq_next_of_isNext calm (by decide), by decide⟩

theorem witness_addresses : (39#6).toNat < 40 ∧ ¬ (40#6).toNat < 40 := by decide

theorem witness_WriteToInIsRejected : (0xC2FF#16).getLsbD 15 = true ∧ (0xC2FF#16).getLsbD 14 = true := by decide

theorem witness_idle : calm.phase = .idle ∧ { calm with rxq := [0x00] }.phase = .idle ∧ calm.rxq = [] ∧
    { calm with rxq := [0x00] }.rxq ≠ [] := by decide

theorem witness_EncodeAcceptingStep : (40#16).toNat ≤ 40 ∧ 40 < (41#16).toNat := by decide

theorem witness_busy : building.phase ≠ .idle := by decide

theorem witness_FrameJoinsReceiveQueue : (List.replicate 40 (⟨1, 2⟩ : Item)).length ≤ 40 := by decide

theorem witness_BuildStep : building.phase = .eBuild ∧ building.itemCount ≤ 40 ∧ building.index < building.itemCount ∧
    { building with len := 80, cnt := 40 }.itemCount ≤ 40 ∧
    ¬ { building with len := 80, cnt := 40 }.index < { building with len := 80, cnt := 40 }.itemCount := by decide

theorem witness_TransmitPhases : stalled.phase = .ePay ∧ stalled.index < 80 ∧ stalled.index + 1 = stalled.len.toNat ∧
    { stalled with cnt := 0 }.index + 1 ≠ stalled.len.toNat ∧ { calm with phase := .eStart }.phase = .eStart := by decide

theorem witness_SyncStep :
    (∃ s : State, s.phase = .dSync ∧ s.rxq = []) ∧
    (∃ s : State, s.phase = .dSync ∧ s.rxq = 0x7E :: [1]) ∧
    (∃ s : State, s.phase = .dSync ∧ s.rxq = 0x7D :: [] ∧ (0x7D : Byte) ≠ 0x7E ∧
      s.timeout.toNat < (s.now - s.t0).toNat) ∧
    (∃ s : State, s.phase = .dSync ∧ s.rxq = 0x7D :: [] ∧ ¬ s.timeout.toNat < (s.now - s.t0).toNat) :=
  ⟨⟨{ calm with phase := .dSync }, by decide⟩, ⟨{ calm with phase := .dSync, rxq := [0x7E, 1] }, by decide⟩,
    ⟨{ calm with phase := .dSync, t0 := 89, rxq := [0x7D] }, by decide⟩,
    ⟨{ calm with phase := .dSync, t0 := 90, rxq := [0x7D] }, by decide⟩⟩

theorem witness_LengthStep :
    (∃ (s : State) (b : Byte) (q : List Byte), s.phase = .dLen ∧ s.rxq = b :: q ∧ (b.toNat % 2 = 1 ∨ 80 < b.toNat)) ∧
    (∃ (s : State) (b : Byte) (q : List Byte), s.phase = .dLen ∧ s.rxq = b :: q ∧ ¬ (b.toNat % 2 = 1 ∨ 80 < b.toNat)) ∧
    (∃ s : State, s.phase = .dLen ∧ s.rxq = [] ∧ s.timeout.toNat < (s.now - s.t0).toNat) ∧
    (∃ s : State, s.phase = .dLen ∧ s.rxq = [] ∧ ¬ s.timeout.toNat < (s.now - s.t0).toNat) :=
  ⟨⟨{ calm with phase := .dLen, rxq := [0x52, 1] }, 0x52, [1], by decide⟩,
    ⟨{ calm with phase := .dLen, rxq := [0x50, 1] }, 0x50, [1], by decide⟩,
    ⟨{ calm with phase := .dLen, t0 := 89 }, by decide⟩, ⟨{ calm with phase := .dLen, t0 := 90 }, by decide⟩⟩

theorem witness_BodyStep :
    (∃ s : State, s.phase = .dBody ∧ s.lenLegal ∧ s.len.toNat + 2 ≤ s.rxq.length) ∧
    (∃ s : State, s.phase = .dBody ∧ s.lenLegal ∧ s.rxq.length < s.len.toNat + 2 ∧
      s.timeout.toNat < (s.now - s.t0).toNat) ∧
    (∃ s : State, s.phase = .dBody ∧ s.lenLegal ∧ s.rxq.length < s.len.toNat + 2 ∧
      ¬ s.timeout.toNat < (s.now - s.t0).toNat) :=
  ⟨⟨{ calm with phase := .dBody, len := 80, rxq := List.replicate 82 0 }, by decide, rfl, by decide⟩,
    ⟨{ calm with phase := .dBody, len := 80, t0 := 89, rxq := List.replicate 81 0 }, by decide, rfl, by decide⟩,
    ⟨{ calm with phase := .dBody, len := 80, t0 := 90, rxq := List.replicate 81 0 }, by decide, rfl, by decide⟩⟩

theorem witness_ReadStep :
    (∃ s : State, s.phase = .dRead ∧ s.index < 80 ∧ s.rxq ≠ [] ∧ s.index < s.len.toNat) ∧
    (∃ s : State, s.phase = .dRead ∧ s.len.toNat ≤ s.index) :=
  ⟨⟨{ calm with phase := .dRead, len := 80, cnt := 79, rxq := [1, 2, 3] }, by decide⟩,
    ⟨{ calm with phase := .dRead, len := 80, cnt := 80 }, by decide⟩⟩

theorem witness_CompareChecksumStep : { calm with phase := .dCks, lastCks := 0xFB, rxq := [0xFB, 0xEF] }.phase = .dCks ∧
    { calm with rxq := [0xFB, 0xEF] }.rxq = 0xFB :: [0xEF] ∧ (0xFA : Byte) ≠ 0xFB := by decide

theorem witness_CompareEndStep : { calm with phase := .dEnd, rxq := [0xEF] }.phase = .dEnd ∧
    { calm with rxq := [0xEF] }.rxq = 0xEF :: [] ∧ (0xEE : Byte) ≠ 0xEF := by decide

theorem witness_ApplyStep : applying.phase = .dApply ∧ applying.itemCount ≤ 40 ∧ applying.index < applying.itemCount ∧
    ¬ { applying with cnt := 1 }.index < applying.itemCount ∧ (0x27 : Byte).toNat < 40 ∧ ¬ (0x28 : Byte).toNat < 40 := by
  decide

theorem witness_InternalStopsAreNamed :
    (∃ s : State, s.phase = .dRead ∧ s.index < s.len.toNat ∧ s.rxq = []) ∧
    (∃ s : State, s.phase = .eBuild ∧ s.index < s.itemCount ∧ 40 ≤ s.index) ∧
    (∃ s : State, s.phase = .ePay ∧ 80 ≤ s.index) ∧
    (∃ s : State, s.phase = .dRead ∧ s.index < s.len.toNat ∧ 80 ≤ s.index ∧ s.rxq ≠ []) ∧
    (∃ s : State, s.phase = .dApply ∧ s.index < s.itemCount ∧ 40 ≤ s.index) ∧
    (∃ s : State, s.phase = .dCks ∧ s.rxq = []) ∧ (∃ s : State, s.phase = .dEnd ∧ s.rxq = []) :=
  ⟨⟨{ calm with phase := .dRead, len := 2, cnt := 1 }, by decide⟩,
    ⟨{ calm with phase := .eBuild, len := 82, cnt := 40 }, by decide⟩,
    ⟨{ calm with phase := .ePay, cnt := 80 }, by decide⟩,
    ⟨{ calm with phase := .dRead, len := 81, cnt := 80, rxq := [1] }, by decide⟩,
    ⟨{ calm with phase := .dApply, len := 82, cnt := 40 }, by decide⟩,
    ⟨{ calm with phase := .dCks }, by decide⟩, ⟨{ calm with phase := .dEnd }, by decide⟩⟩

theorem witness_MaximalTimeoutNeverFires : ∃ s t : State, s.timeout = 0xFFFF ∧ step s = .next t ∧ s.phase = .dLen :=
  ⟨{ calm with timeout := 0xFFFF, phase := .dLen, t0 := 101 }, _, by decide, eq_next_of_isNext calm (by decide), by decide⟩

theorem witness_StatusCodesAsTabulated : { calm with resp := some .encodeLengthError }.resp = some .encodeLengthError := by
  decide

theorem witness_SingleBitFlipIsDetected : (7 : Nat) < 8 := by decide

theorem witness_LastPairForAnIdWins : (39 : Nat) < 40 := by decide

theorem witness_ResetLeavesTheSpecifiedValues :
    { stalled with script := [{ Inputs.quiet with rst := true }] }.lines.rst = true ∧
    stalled.build.side = .peripheral ∧ { stalled with build := ⟨.crc8, .host, 500⟩ }.build.side = .host := by decide

/-- A busy state that meets the invariant: a byte waits in `E_PAY`. -/
theorem witness_Inv : stalled.Inv := by
  refine ⟨⟨rfl, by decide⟩, ⟨?_, ?_⟩, fun _ => by decide⟩
  · show stalled.lastCks = _
    decide
  · intro k hk
    have : stalled.itemCount = 1 := by decide
    have h0 : k = 0 := by omega
    subst h0
    decide

theorem witness_StepKeepsInvariant : ∃ s t : State, s.Inv ∧ step s = .next t :=
  ⟨stalled, _, witness_Inv, eq_next_of_isNext calm (by decide)⟩

theorem witness_OnlyApplyWritesIn : ∃ s t : State, s.lines.rst = false ∧ step s = .next t ∧ t.readIn 0 ≠ s.readIn 0 :=
  ⟨applying, _, by decide, eq_next_of_isNext calm (by decide), by decide⟩

theorem witness_OnlyOutwWritesOut : ∃ s t : State, s.lines.rst = false ∧ step s = .next t ∧ t.readOut 39 ≠ s.readOut 39 :=
  ⟨{ calm with script := [access false true 39 0x99] }, _, by decide, eq_next_of_isNext calm (by decide), by decide⟩

theorem witness_OnlySetTimeoutWritesTimeout : ∃ s t : State, s.lines.rst = false ∧ step s = .next t ∧
    t.timeout ≠ s.timeout :=
  ⟨{ calm with script := [command 0b10 500] }, _, by decide, eq_next_of_isNext calm (by decide), by decide⟩

theorem witness_LastCksWrittenAtTwoPoints : ∃ s t : State, s.lines.rst = false ∧ step s = .next t ∧
    t.lastCks ≠ s.lastCks :=
  ⟨{ building with cnt := 1, acc := 0x05 }, _, by decide, eq_next_of_isNext calm (by decide), by decide⟩

theorem witness_step : ∃ s t : State, step s = .next t ∧ s.lines.rxBytes ≠ [] ∧ s.phase = .dLen :=
  ⟨{ calm with phase := .dLen, script := [{ Inputs.quiet with rxBytes := [0x02, 0x00] }] }, _,
    eq_next_of_isNext calm (by decide), by decide⟩

theorem witness_StalledByteStaysPresented : ∃ s t : State, s.Inv ∧ s.txStalled = true ∧ s.lines.rst = false ∧
    step s = .next t := ⟨stalled, _, witness_Inv, by decide, by decide, eq_next_of_isNext calm (by decide)⟩

/-- An idle block that accepts ENCODE 1 in its next cycle; `tx_ready` is 0 from then on, for ever (R130). -/
def neverReady : State :=
  { calm with script := [{ command 0b01 1 with txReady := false }], rest := { Inputs.quiet with txReady := false } }

theorem witness_StalledByteStaysPresented_forever : neverReady.accepts (.encode 1) ∧ (1#16).toNat ≤ 40 ∧
    neverReady.scriptAll Inputs.noReset ∧ neverReady.scriptAll (fun i => i.txReady = false) := by
  refine ⟨?_, by decide, ?_, ?_⟩
  · unfold State.accepts; decide
  · unfold State.scriptAll Inputs.noReset; decide
  · unfold State.scriptAll; decide

/-- R130's last row: six cycles on, the script long used up, the sentinel still waits. -/
theorem test_never_ready : (nextOf (run 6 neverReady) calm).phase = .eStart ∧
    (nextOf (run 6 neverReady) calm).tx = some 0x7E ∧ (nextOf (run 6 neverReady) calm).txq = [] := by decide

theorem witness_ResponseLeavesTheBlockIdle : ∃ (s t : State) (status : Status), step s = .next t ∧
    t.resp = some status :=
  ⟨{ applying with cnt := 1 }, _, .ok, eq_next_of_isNext calm (by decide), by decide⟩

theorem witness_InContentsStayInside : ∃ (s t u : State) (v : Vector Byte 40), step s = .next t ∧
    step { s with inStore := v } = .next u ∧ v ≠ s.inStore :=
  ⟨applying, _, _, bytesFrom 40 fun _ => 0x00, eq_next_of_isNext calm (by decide), eq_next_of_isNext calm (by decide),
    by decide⟩

/-- An idle block whose next cycle accepts ENCODE 1. -/
def encodeNext : State := { calm with script := [command 0b01 1] }

theorem witness_EncodeTransmitsItsFrame : encodeNext.accepts (.encode 1) ∧ (1#16).toNat ≤ 40 ∧
    encodeNext.scriptAll Inputs.attentive ∧ encodeNext.scriptAll Inputs.leavesOut := by
  refine ⟨?_, by decide, ?_, ?_⟩
  · unfold State.accepts; decide
  · unfold State.scriptAll Inputs.attentive; decide
  · unfold State.scriptAll Inputs.leavesOut; decide

theorem witness_EncodeFrameUnderAnyEnvironment : ∃ t, encodeNext.accepts (.encode 1) ∧ (1#16).toNat ≤ 40 ∧
    encodeNext.scriptAll Inputs.noReset ∧ encodeNext.scriptAll Inputs.leavesOut ∧ encodeNext.respondsAt 9 t .ok := by
  refine ⟨_, witness_EncodeTransmitsItsFrame.1, by decide, ?_, witness_EncodeTransmitsItsFrame.2.2.2,
    respondsAt_of_check (k := 8) (by decide)⟩
  unfold State.scriptAll Inputs.noReset; decide

/-- OUTW to slot 0 in the accepting cycle and in the next one, while ENCODE 1 builds. -/
def racing : State := { calm with script := [{ command 0b01 1 with appEn := true, appWe := true, appWdata := 7 }, access false true 0 9] }

theorem witness_RacingWritesNeverBreakAFrame : ∃ t, racing.accepts (.encode 1) ∧ (1#16).toNat ≤ 40 ∧
    racing.scriptAll Inputs.noReset ∧ racing.respondsAt 9 t .ok := by
  refine ⟨_, ?_, by decide, ?_, respondsAt_of_check (k := 8) (by decide)⟩
  · unfold State.accepts; decide
  · unfold State.scriptAll Inputs.noReset; decide

/-- An idle block that holds the bytes `q` and whose next cycle accepts DECODE. -/
def decodeNext (q : List Byte) : State := { calm with rxq := q, script := [command 0b00 0] }

/-- One witness for each answer of `decodeBuffered`: it responds (R140's example with one pair), waits for the length
byte, waits for the body. -/
theorem witness_DecodeIsTheBufferedFunction :
    ((decodeNext [0x7E, 0x02, 0x00, 0x05, 0xFB, 0xEF]).accepts .decode ∧
      (decodeNext [0x7E, 0x02, 0x00, 0x05, 0xFB, 0xEF]).scriptAll Inputs.frozen ∧
      decodeBuffered .sum2c [0x7E, 0x02, 0x00, 0x05, 0xFB, 0xEF] calm.inStore =
        .responds .ok [] (calm.inStore.set 0 0x05) (some 0xFB)) ∧
    ((decodeNext [0x7E]).accepts .decode ∧ (decodeNext [0x7E]).scriptAll Inputs.frozen ∧
      decodeBuffered .sum2c [0x7E] calm.inStore = .waitsForLength) ∧
    ((decodeNext [0x7E, 0x02, 0x00, 0x05]).accepts .decode ∧ (decodeNext [0x7E, 0x02, 0x00, 0x05]).scriptAll Inputs.frozen ∧
      decodeBuffered .sum2c [0x7E, 0x02, 0x00, 0x05] calm.inStore = .waitsForBody [0x00, 0x05]) := by
  unfold State.accepts State.scriptAll Inputs.frozen
  exact ⟨⟨by decide, by decide, by decide⟩, ⟨by decide, by decide, by decide⟩, ⟨by decide, by decide, by decide⟩⟩

theorem witness_FailedDecodeLeavesIn : ∃ t, (decodeNext [0x11, 0x22]).accepts .decode ∧
    (decodeNext [0x11, 0x22]).scriptAll Inputs.noReset ∧
    (decodeNext [0x11, 0x22]).respondsAt 4 t .serialBuffError ∧ Status.serialBuffError ≠ .ok := by
  refine ⟨_, ?_, ?_, respondsAt_of_check (k := 3) (by decide), by decide⟩
  · unfold State.accepts; decide
  · unfold State.scriptAll Inputs.noReset; decide

/-- A wait in `D_BODY` that begins now, with `TIMEOUT` = 1; every cycle ticks. -/
def waiting : State :=
  { calm with
    phase := .dBody, len := 2, rxq := [0x00, 0x05], timeout := 1, t0 := 100, rest := { Inputs.quiet with tick := true } }

theorem witness_WaitEndsAfterTimeout :
    (waiting.phase = .dBody ∧ waiting.lenLegal ∧ waiting.rxq.length < waiting.len.toNat + 2) ∧
    ({ waiting with phase := .dLen, rxq := [] }.phase = .dLen ∧ { waiting with phase := .dLen, rxq := [] }.rxq = []) ∧
    waiting.t0 = waiting.now ∧ waiting.timeout.toNat < 0xFFFF ∧
    waiting.scriptAll (fun i => i.rst = false ∧ i.rxBytes = [] ∧ i.tick = true ∧ i.seqRun = true) := by
  refine ⟨⟨rfl, rfl, by decide⟩, ⟨rfl, rfl⟩, by decide, by decide, ?_⟩
  unfold State.scriptAll; decide

/-- V-T2 in small (R155): with `TIMEOUT` = 1 the second tick ends the wait, the first does not. -/
theorem test_wait_ends : respondsCheck 1 waiting .timeoutError = true := by decide

/-- A receiver that holds one whole frame, `TIMEOUT` = 0; time passes in every cycle and a byte arrives in the accepting one. -/
def receiving : State :=
  { calm with
    timeout := 0, rxq := [0x7E, 0x02, 0x00, 0x0A, 0xF6, 0xEF], rest := { Inputs.quiet with tick := true }
    script := [{ command 0b00 0 with rxBytes := [0x7E], tick := true }] }

theorem witness_RoundTripBetweenPeers : ∃ ta tb,
    encodeNext.accepts (.encode 1) ∧ (1#16).toNat ≤ 40 ∧ encodeNext.scriptAll Inputs.noReset ∧
    encodeNext.scriptAll Inputs.leavesOut ∧ encodeNext.respondsAt 9 ta .ok ∧
    receiving.accepts .decode ∧ receiving.scriptAll Inputs.noReset ∧
    receiving.build.cksAlg = encodeNext.build.cksAlg ∧ ta.txq = encodeNext.txq ++ receiving.rxq ∧
    receiving.respondsAt 11 tb .ok ∧ receiving.scriptAll (fun i => i.seqRun = true) ∧ tb.rxq = [0x7E] := by
  refine ⟨_, _, witness_EncodeTransmitsItsFrame.1, by decide, ?_, witness_EncodeTransmitsItsFrame.2.2.2,
    respondsAt_of_check (k := 8) (by decide), ?_, ?_, by decide, by decide, respondsAt_of_check (k := 10) (by decide), ?_,
    by decide⟩
  · unfold State.scriptAll Inputs.noReset; decide
  · unfold State.accepts; decide
  · unfold State.scriptAll Inputs.noReset; decide
  · unfold State.scriptAll; decide

end Sys2Proof.Tests
end

/-! SUPPORT. The memory statements (20_memory.md): what the store port's accesses answer and leave unchanged, and that
within a step every read of a slot comes before the writes (R71). -/

section

namespace Sys2Proof.Machine

variable {s t : State} {i : Inputs}

/-! ### Slots -/

/-- A read after a write: the written byte at the written slot, if there is one, and the old byte elsewhere (R63). -/
theorem readOut_writeOut (s : State) (k j : Nat) (v : Byte) :
    (s.writeOut k v).readOut j = if k = j ∧ k < 40 then some v else s.readOut j := by
  simp only [State.readOut, State.outStore_writeOut, Vector.getElem?_setIfInBounds, numSlots]
  by_cases hkj : k = j
  · subst hkj
    by_cases hk : k < 40 <;> simp [hk]
  · simp [hkj]

/-! ### Accesses that write no slot -/

/-- Nothing but the store port's two outputs may differ. -/
def SameButAccess (s t : State) : Prop :=
  SameOut s t ∧ SameIn s t ∧ SameControl s t ∧ t.phase = s.phase ∧ SameInternal s t ∧ SameStreams s t ∧
    SameResponse s t ∧ SameModel s t

theorem sameButAccess_outputs (s : State) (e : Bool) (r : Option Byte) :
    SameButAccess s { s with appErr := e, appRdata := r } :=
  ⟨fun _ => rfl, fun _ => rfl, ⟨rfl, rfl⟩, rfl, ⟨rfl, rfl, rfl, rfl, rfl⟩, ⟨rfl, rfl, rfl⟩, ⟨rfl, rfl, rfl, rfl⟩,
    ⟨rfl, rfl, rfl, rfl⟩⟩

/-- A read through the port shows the byte, or 0x00 with `app_err`, and changes nothing else (R64). -/
theorem portRead_eq (s : State) (v : Option Byte) :
    s.portRead v = { s with appErr := v.isNone, appRdata := some (v.getD 0x00) } := by
  cases v <;> rfl

theorem sameButAccess_portRead (s : State) (v : Option Byte) : SameButAccess s (s.portRead v) := by
  rw [portRead_eq]
  exact sameButAccess_outputs s _ _

/-- The read of an existing slot. -/
theorem portRead_slot_of_lt (s : State) (store : Vector Byte numSlots) {k : Nat} (h : k < 40) :
    (s.portRead store[k]?).appRdata = store[k]? ∧ (s.portRead store[k]?).appRdata.isSome = true ∧
      (s.portRead store[k]?).appErr = false := by
  have hv : store[k]? = some store[k] := Vector.getElem?_eq_getElem h
  simp [portRead_eq, hv]

/-- The read of an index that names no slot (R66). -/
theorem portRead_slot_of_not_lt (s : State) (store : Vector Byte numSlots) {k : Nat} (h : ¬ k < 40) :
    (s.portRead store[k]?).appRdata = some 0x00 ∧ (s.portRead store[k]?).appErr = true := by
  have hv : store[k]? = none := Vector.getElem?_eq_none (Nat.not_lt.mp h)
  simp [portRead_eq, hv]

/-! ### Store words -/

/-- The two top bits of a store word are `app_sel` and `app_we` (R100). -/
theorem extractLsb'_top_storeWord (w : BitVec 16) :
    w.extractLsb' 14 2 = BitVec.ofBool (w.getLsbD 15) ++ BitVec.ofBool (w.getLsbD 14) := by
  conv_lhs => rw [← storeWord_fields w]
  exact (field_storeWord _ _ _ _).1

/-- A write aimed at `IN` is STORE_RESERVED, whatever the other bits are (R65). -/
theorem decodeStore_sel_we {w : BitVec 16} (hsel : w.getLsbD 15 = true) (hwe : w.getLsbD 14 = true) :
    decodeStore w = .storeReserved := by
  have htop : w.extractLsb' 14 2 = 0b11#2 := by
    rw [extractLsb'_top_storeWord, hsel, hwe]
    rfl
  simp [decodeStore, htop]

/-! ### The order of accesses within a step (R71) -/

/-- The cycle's read access, when it is an INR. -/
theorem portReads_inr {a : BitVec 6} (hen : i.appEn = true) (hd : decodeStore i.storeWord = .inr a) (s : State) :
    portReads i s = .next (s.portRead (s.readIn a.toNat)) := by
  rw [portReads, hen, hd]
  rfl

/-- The cycle's write access, when it is an OUTW. -/
theorem portWrites_outw {a : BitVec 6} {v : Byte} (hen : i.appEn = true)
    (hd : decodeStore i.storeWord = .outw a v) (s : State) : portWrites i s = execOutw a v s := by
  rw [portWrites, hen, hd]
  rfl

/-- The write access leaves the payload buffer and what a read of the same cycle shows. -/
theorem portWrites_frame (h : portWrites i s = .next t) : t.pbuf = s.pbuf ∧ t.appRdata = s.appRdata := by
  rcases portWrites_eq i s with hn | ⟨_, a, v, _, hn⟩ <;> rw [hn] at h <;> cases h <;> exact ⟨rfl, rfl⟩

/-- A moving sequencer in `E_BUILD` buffers the value its slot holds as the value of the pair it builds (R122). -/
theorem pbuf_value_of_sequencer {go : Bool} (h : sequencer go i s = .next t) (hgo : go = true) (hp : s.phase = .eBuild)
    (hi : s.index < s.itemCount) (hc : s.itemCount ≤ 40) : t.pbuf[2 * s.index + 1]? = s.readOut s.index := by
  have hbuild : stepBuild s = .next t := by simpa [sequencer, phaseStep, hp, hgo] using h
  rcases stepBuild_eq_next.mp hbuild with ⟨v, _, hv, rfl⟩ | ⟨hle, _⟩
  · have hlt : 2 * s.index + 1 < pbufDepth := by unfold pbufDepth; omega
    simp [hv, hlt]
  · omega

/-- `E_BUILD` reads its slot before an OUTW of the same step writes it. -/
theorem step_build_reads_before_outw (hr : s.lines.rst = false) (hrun : s.lines.seqRun = true)
    (h : step s = .next t) (hp : s.phase = .eBuild) (hi : s.index < s.itemCount) (hc : s.itemCount ≤ 40) :
    t.pbuf[2 * s.index + 1]? = s.readOut s.index := by
  obtain ⟨_, _, _, hseq, _, hw⟩ := cycle_eq_next hr h
  have hgo : sequencerGoes s.lines s = true := by simp [sequencerGoes, hrun]
  have hbuilt := pbuf_value_of_sequencer hseq hgo hp hi hc
  rw [(portWrites_frame hw).1]
  exact hbuilt

/-- An INR reads its slot before a `D_APPLY` of the same step writes it. -/
theorem step_inr_reads_before_apply (hr : s.lines.rst = false) (hen : s.lines.appEn = true) (h : step s = .next t)
    {a : BitVec 6} (hd : decodeStore s.lines.storeWord = .inr a) (ha : a.toNat < 40) :
    t.appRdata = s.readIn a.toNat := by
  obtain ⟨_, _, _, hseq, hread, hw⟩ := cycle_eq_next hr h
  obtain ⟨_, _, _, hkeep, _⟩ := sequencer_frame hseq
  rw [portReads_inr hen hd] at hread
  have hshown := congrArg State.appRdata (Host.Outcome.next.inj hread)
  rw [(portWrites_frame hw).2, hkeep]
  exact hshown.symm.trans (portRead_slot_of_lt _ s.inStore ha).1

/-- An OUTW takes effect in its step, whatever the sequencer does (R63). -/
theorem step_outw_writes (hr : s.lines.rst = false) (hen : s.lines.appEn = true) (h : step s = .next t)
    {a : BitVec 6} {v : Byte} (hd : decodeStore s.lines.storeWord = .outw a v) (ha : a.toNat < 40) :
    t.readOut a.toNat = some v := by
  obtain ⟨_, _, u, _, _, hw⟩ := cycle_eq_next hr h
  rw [portWrites_outw hen hd, execOutw_eq] at hw
  cases hw
  exact (readOut_writeOut u a.toNat a.toNat v).trans (if_pos ⟨rfl, ha⟩)

end Sys2Proof.Machine

namespace Sys2Proof.Proofs

open Sys2Proof.Machine

/-- Settles O11: each read is made on the values the step began with, and the OUTW after it. -/
theorem sameStepReadsPrecedeWrites : Obligations.SameStepReadsPrecedeWrites := by
  intro s t hr hen hrun h
  exact ⟨step_build_reads_before_outw hr hrun h, fun _ => step_inr_reads_before_apply hr hen h,
    fun _ _ => step_outw_writes hr hen h⟩

/-- Settles O12, by what a read of `OUT` answers after the write. -/
theorem outwWritesOneSlot : Obligations.OutwWritesOneSlot := by
  intro s a v
  refine ⟨_, execOutw_eq a v s, fun ha => ⟨?_, by simp [ha]⟩, fun ha => ⟨?_, by simp [ha]⟩, fun b hb => ?_,
    fun _ => rfl, ⟨rfl, rfl⟩, rfl, ⟨rfl, rfl, rfl, rfl, rfl⟩, ⟨rfl, rfl, rfl⟩, ⟨rfl, rfl, rfl, rfl⟩, rfl,
    ⟨rfl, rfl, rfl, rfl⟩⟩
  · exact (readOut_writeOut s a.toNat a.toNat v).trans (if_pos ⟨rfl, ha⟩)
  · exact (readOut_writeOut s a.toNat a.toNat v).trans (if_neg fun h => ha h.2)
  · exact (readOut_writeOut s a.toNat b v).trans (if_neg fun h => hb h.1.symm)

/-- Settles O13: both reads answer `portRead` of the slot, and differ in the store only. -/
theorem portReadsReturnTheSlot : Obligations.PortReadsReturnTheSlot := by
  intro s a
  constructor
  · exact ⟨s.portRead (s.readOut a.toNat), rfl, portRead_slot_of_lt s s.outStore,
      portRead_slot_of_not_lt s s.outStore, sameButAccess_portRead s _⟩
  · exact ⟨s.portRead (s.readIn a.toNat), rfl, portRead_slot_of_lt s s.inStore,
      portRead_slot_of_not_lt s s.inStore, sameButAccess_portRead s _⟩

/-- Settles O14: the two top bits decide the word, and its meaning sets `app_err` only. -/
theorem writeToInIsRejected : Obligations.WriteToInIsRejected := by
  intro s w hsel hwe
  exact ⟨decodeStore_sel_we hsel hwe, s.accessRejected, rfl, rfl, rfl, sameButAccess_outputs s true s.appRdata⟩

end Sys2Proof.Proofs

end

/-! SUPPORT. The encoding statements (30_encoding.md): what a command word and a store word decode to, by the value of
their two top bits, with the operands written as R99 and R100 place them. -/

section

namespace Sys2Proof

/-! ### Command words, by `cmd_op` (R99) -/

section CommandWords

variable {w : BitVec 18}

theorem decodeCommand_of_op_decode (h : w.extractLsb' 16 2 = 0b00#2) : decodeCommand w = .decode := by
  simp [decodeCommand, h]

theorem decodeCommand_of_op_encode (h : w.extractLsb' 16 2 = 0b01#2) :
    decodeCommand w = .encode (w.setWidth 16) := by
  simp [decodeCommand, h, BitVec.setWidth_eq_extractLsb']

theorem decodeCommand_of_op_setTimeout (h : w.extractLsb' 16 2 = 0b10#2) :
    decodeCommand w = .setTimeout (w.setWidth 16) := by
  simp [decodeCommand, h, BitVec.setWidth_eq_extractLsb']

theorem decodeCommand_of_op_reserved (h : w.extractLsb' 16 2 = 0b11#2) : decodeCommand w = .cmdReserved := by
  simp [decodeCommand, h]

end CommandWords

/-! ### Store words, by `app_sel` and `app_we` (R100) -/

section StoreWords

variable {w : BitVec 16}

theorem decodeStore_of_top_outw (h : w.extractLsb' 14 2 = 0b01#2) :
    decodeStore w = .outw ((w >>> 8).setWidth 6) (w.setWidth 8) := by
  simp [decodeStore, h, BitVec.setWidth_ushiftRight_eq_extractLsb, BitVec.setWidth_eq_extractLsb' (x := w)]

theorem decodeStore_of_top_outr (h : w.extractLsb' 14 2 = 0b00#2) :
    decodeStore w = .outr ((w >>> 8).setWidth 6) := by
  simp [decodeStore, h, BitVec.setWidth_ushiftRight_eq_extractLsb]

theorem decodeStore_of_top_inr (h : w.extractLsb' 14 2 = 0b10#2) :
    decodeStore w = .inr ((w >>> 8).setWidth 6) := by
  simp [decodeStore, h, BitVec.setWidth_ushiftRight_eq_extractLsb]

theorem decodeStore_of_top_reserved (h : w.extractLsb' 14 2 = 0b11#2) : decodeStore w = .storeReserved := by
  simp [decodeStore, h]

end StoreWords

end Sys2Proof

namespace Sys2Proof.Proofs

/-- Settles O2: the mask fixes `cmd_op`, and `cmd_op` decides the operation. -/
theorem commandPatternsRead : Obligations.CommandPatternsRead := by
  intro w
  simp only [decode_command, Except.ok.injEq]
  exact ⟨fun h => decodeCommand_of_op_decode (field_of_mask18 w 0b00 h),
    fun h => decodeCommand_of_op_encode (field_of_mask18 w 0b01 h),
    fun h => decodeCommand_of_op_setTimeout (field_of_mask18 w 0b10 h),
    fun h => decodeCommand_of_op_reserved (field_of_mask18 w 0b11 h)⟩

/-- Settles O3: the mask fixes `app_sel` and `app_we`, and these two bits decide the access. -/
theorem storePatternsRead : Obligations.StorePatternsRead := by
  intro w
  simp only [decode_store, Except.ok.injEq]
  exact ⟨fun h => decodeStore_of_top_outw (field_of_mask16 w 0b01 h),
    fun h => decodeStore_of_top_outr (field_of_mask16 w 0b00 h),
    fun h => decodeStore_of_top_inr (field_of_mask16 w 0b10 h),
    fun h => decodeStore_of_top_reserved (field_of_mask16 w 0b11 h)⟩

end Sys2Proof.Proofs

end

/-! SUPPORT. The statement about `E_BUILD` (40_encode.md, R122, R123): the pair it writes into `PBUF`, and what either
branch leaves unchanged. -/

section

namespace Sys2Proof.Machine

variable {s t : State}

/-! ### The pair in the payload buffer -/

theorem pbuf_writeItem_id {k : Nat} (hk : k < 40) (item : Item) (s : State) :
    (s.writeItem k item).pbuf[2 * k]? = some item.id := by
  have hlt : 2 * k < pbufDepth := by unfold pbufDepth; omega
  simp [hlt]

theorem pbuf_writeItem_value {k : Nat} (hk : k < 40) (item : Item) (s : State) :
    (s.writeItem k item).pbuf[2 * k + 1]? = some item.value := by
  have hlt : 2 * k + 1 < pbufDepth := by unfold pbufDepth; omega
  simp [hlt]

theorem pbuf_writeItem_of_ne {k j : Nat} (hid : j ≠ 2 * k) (hvalue : j ≠ 2 * k + 1) (item : Item) (s : State) :
    (s.writeItem k item).pbuf[j]? = s.pbuf[j]? := by
  simp [hid.symm, hvalue.symm]

/-! ### The frame of `E_BUILD` -/

/-- Nothing but `ACC`, `CNT`, `PHASE`, `PBUF` and `LASTCKS` may differ. -/
def SameButBuild (s t : State) : Prop :=
  t.len = s.len ∧ t.t0 = s.t0 ∧ t.timeout = s.timeout ∧
    SameOut s t ∧ SameIn s t ∧ SameStreams s t ∧ SameResponse s t ∧ SameAccess s t ∧ SameModel s t

/-- Either branch of `E_BUILD` keeps the frame. -/
theorem sameButBuild_of_stepBuild (h : stepBuild s = .next t) : SameButBuild s t := by
  rcases stepBuild_eq_next.mp h with ⟨_, _, _, rfl⟩ | ⟨_, rfl⟩ <;>
    simp [SameButBuild, SameOut, SameIn, SameStreams, SameResponse, SameAccess, SameModel, State.readOut, State.readIn]

theorem phaseStep_of_eBuild (ready : Bool) (hp : s.phase = .eBuild) : phaseStep ready s = stepBuild s := by
  simp [phaseStep, hp]

/-! ### The two branches of `E_BUILD` -/

/-- A pair is left to build, and `v` is the value its slot holds (R122). -/
theorem stepBuild_pair {v : Byte} (hi : s.index < s.itemCount) (hk : s.index < 40) (hv : s.readOut s.index = some v) :
    ∃ t, stepBuild s = .next t ∧ t.pbuf = (s.writeItem s.index ⟨positionId s.cnt, v⟩).pbuf ∧
      t.acc = cksUpdate s.build.cksAlg (cksUpdate s.build.cksAlg s.acc (positionId s.cnt)) v ∧
      t.index = s.index + 1 ∧ t.phase = s.phase ∧ t.lastCks = s.lastCks := by
  have hcount : s.countUp.index = s.index + 1 := State.index_countUp s (by omega)
  exact ⟨_, stepBuild_eq_next.mpr (.inl ⟨v, hi, hv, rfl⟩), by simp, by simp, by simpa [State.index] using hcount,
    by simp, by simp⟩

/-- Every pair is built (R123). -/
theorem stepBuild_done (hi : ¬ s.index < s.itemCount) :
    ∃ t, stepBuild s = .next t ∧ t.lastCks = cksFinal s.build.cksAlg s.acc ∧ t.phase = .eStart ∧
      t.acc = s.acc ∧ t.cnt = s.cnt ∧ t.pbuf = s.pbuf :=
  ⟨_, stepBuild_eq_next.mpr (.inr ⟨Nat.not_lt.mp hi, rfl⟩), by simp, by simp, by simp, by simp, by simp⟩

end Sys2Proof.Machine

namespace Sys2Proof.Proofs

open Sys2Proof.Machine

/-- Settles O22, by the two branches of `E_BUILD`: a pair left to build, whose slot exists as there are 40, or none. -/
theorem buildStep : Obligations.BuildStep := by
  intro ready s hp hc
  rw [phaseStep_of_eBuild ready hp]
  by_cases hi : s.index < s.itemCount
  · have hk : s.index < 40 := by omega
    obtain ⟨v, hv⟩ := State.readOut_of_lt s hk
    obtain ⟨t, hstep, hbuf, hacc, hindex, hphase, hcks⟩ := stepBuild_pair hi hk hv
    refine ⟨t, hstep, fun _ => ⟨v, positionId s.cnt, hv, positionId_eq s.cnt, ?_⟩, fun hn => absurd hi hn,
      sameButBuild_of_stepBuild hstep⟩
    rw [hbuf]
    exact ⟨pbuf_writeItem_id hk _ s, pbuf_writeItem_value hk _ s,
      fun _ hid hvalue => pbuf_writeItem_of_ne hid hvalue _ s, hacc, hindex, hphase.trans hp, hcks⟩
  · obtain ⟨t, hstep, hdone⟩ := stepBuild_done hi
    exact ⟨t, hstep, fun h => absurd h hi, fun _ => hdone, sameButBuild_of_stepBuild hstep⟩

end Sys2Proof.Proofs

end

/-! SUPPORT. The statement about `D_READ` (41_decode.md, R148, R149): the byte it reads into `PBUF`, the checksum it
writes when all are read, and what either branch leaves unchanged. -/

section

namespace Sys2Proof.Machine

variable {s t : State} {b : Byte} {q : List Byte}

/-! ### One byte in the payload buffer -/

theorem pbuf_writeBuf_same {k : Nat} (hk : k < 80) (b : Byte) (s : State) : (s.writeBuf k b).pbuf[k]? = some b := by
  simp [hk]

theorem pbuf_writeBuf_of_ne {k j : Nat} (hj : j ≠ k) (b : Byte) (s : State) :
    (s.writeBuf k b).pbuf[j]? = s.pbuf[j]? := by
  simp [hj.symm]

/-! ### The frame of `D_READ` -/

/-- Nothing but RXQ, `rx_pop`, `PBUF`, `ACC`, `CNT`, `PHASE` and `LASTCKS` may differ. -/
def SameButRead (s t : State) : Prop :=
  t.len = s.len ∧ t.t0 = s.t0 ∧ t.timeout = s.timeout ∧ t.txq = s.txq ∧ t.now = s.now ∧ t.resp = s.resp ∧
    SameOut s t ∧ SameIn s t ∧ t.tx = s.tx ∧ t.txTaken = s.txTaken ∧ SameAccess s t ∧ SameModel s t

/-- Either branch of `D_READ` keeps the frame. -/
theorem sameButRead_of_stepRead (h : stepRead s = .next t) : SameButRead s t := by
  rcases stepRead_eq_next.mp h with ⟨_, _, _, _, _, rfl⟩ | ⟨_, rfl⟩ <;>
    simp [SameButRead, SameOut, SameIn, SameAccess, SameModel, State.readOut, State.readIn]

theorem phaseStep_of_dRead (ready : Bool) (hp : s.phase = .dRead) : phaseStep ready s = stepRead s := by
  simp [phaseStep, hp]

/-! ### The two branches of `D_READ` -/

/-- A payload byte is left to read, and `b` is the head of RXQ (R148). -/
theorem stepRead_byte (hi : s.index < s.len.toNat) (hk : s.index < 80) (hq : s.rxq = b :: q) :
    ∃ t, stepRead s = .next t ∧ t.rxq = q ∧ t.rxPop = true ∧ t.pbuf = (s.writeBuf s.index b).pbuf ∧
      t.acc = cksUpdate s.build.cksAlg s.acc b ∧ t.index = s.index + 1 ∧ t.phase = s.phase ∧ t.lastCks = s.lastCks := by
  have hcount : s.countUp.index = s.index + 1 := State.index_countUp s (by omega)
  exact ⟨_, stepRead_eq_next.mpr (.inl ⟨b, q, hi, hk, hq, rfl⟩), by simp [hq], by simp, by simp, by simp,
    by simpa [State.index] using hcount, by simp, by simp⟩

/-- Every payload byte is read (R149). -/
theorem stepRead_done (hi : s.len.toNat ≤ s.index) :
    ∃ t, stepRead s = .next t ∧ t.lastCks = cksFinal s.build.cksAlg s.acc ∧ t.phase = .dCks ∧ t.rxq = s.rxq ∧
      t.rxPop = s.rxPop ∧ t.pbuf = s.pbuf ∧ t.acc = s.acc ∧ t.cnt = s.cnt :=
  ⟨_, stepRead_eq_next.mpr (.inr ⟨hi, rfl⟩), by simp, by simp, by simp, by simp, by simp, by simp, by simp⟩

end Sys2Proof.Machine

namespace Sys2Proof.Proofs

open Sys2Proof.Machine

/-- Settles O27, by the two branches of `D_READ`: a byte left to read, which the hypotheses put in RXQ and give a place
in `PBUF`, or none. -/
theorem readStep : Obligations.ReadStep := by
  intro ready s hp hbuf hrxq
  rw [phaseStep_of_dRead ready hp]
  by_cases hi : s.index < s.len.toNat
  · have hnot : ¬ s.len.toNat ≤ s.index := Nat.not_le.mpr hi
    have hk : s.index < 80 := hbuf.resolve_right hnot
    obtain ⟨b, q, hq⟩ := List.exists_cons_of_ne_nil (hrxq.resolve_right hnot)
    obtain ⟨t, hstep, htail, hpop, hpbuf, hacc, hindex, hphase, hcks⟩ := stepRead_byte hi hk hq
    refine ⟨t, hstep, fun b' q' _ hq' => ?_, fun h => absurd h hnot, sameButRead_of_stepRead hstep⟩
    obtain ⟨rfl, rfl⟩ := List.cons.inj (hq.symm.trans hq')
    rw [hpbuf]
    exact ⟨htail, hpop, pbuf_writeBuf_same hk b s, fun _ hj => pbuf_writeBuf_of_ne hj b s, hacc, hindex,
      hphase.trans hp, hcks⟩
  · obtain ⟨t, hstep, hdone⟩ := stepRead_done (Nat.not_lt.mp hi)
    exact ⟨t, hstep, fun _ _ h => absurd h hi, fun _ => hdone, sameButRead_of_stepRead hstep⟩

end Sys2Proof.Proofs

end

/-! SUPPORT. The statement about CRC8's update (43_checksum.md, R205): the bit a shift tests and the number it answers,
and the update as shifts of `acc XOR b`. -/

section

namespace Sys2Proof.Machine

variable {c : Byte}

/-! ### One shift, in numbers -/

/-- The bit tested is bit 0, which is the parity of the number. -/
theorem getLsbD_zero_iff_odd : c.getLsbD 0 = true ↔ c.toNat % 2 = 1 := by
  rw [← BitVec.testBit_toNat, Nat.testBit_zero, decide_eq_true_iff]

theorem toNat_crcShift_of_odd (h : c.toNat % 2 = 1) : (crcShift c).toNat = (c.toNat / 2) ^^^ 0x8C := by
  simp [crcShift, getLsbD_zero_iff_odd.mpr h, crcPoly, Nat.shiftRight_eq_div_pow]

theorem toNat_crcShift_of_not_odd (h : ¬ c.toNat % 2 = 1) : (crcShift c).toNat = c.toNat / 2 := by
  have hbit : ¬ c.getLsbD 0 = true := mt getLsbD_zero_iff_odd.mp h
  rw [crcShift, if_neg hbit, BitVec.toNat_ushiftRight, Nat.shiftRight_eq_div_pow, Nat.pow_one]

/-! ### The update as shifts -/

theorem cksUpdate_crc8 (acc b : Byte) : cksUpdate .crc8 acc b = crcShifts 8 (acc ^^^ b) := rfl

/-- Eight shifts, written out. -/
theorem crcShifts_eight (c : Byte) : crcShifts 8 c =
    crcShift (crcShift (crcShift (crcShift (crcShift (crcShift (crcShift (crcShift c))))))) := by
  simp only [crcShifts]

/-- CRC8's update sees the accumulator and the byte through their XOR only. -/
theorem cksUpdate_crc8_eq_zero_xor (acc b : Byte) : cksUpdate .crc8 acc b = cksUpdate .crc8 0x00 (acc ^^^ b) := by
  simp [cksUpdate_crc8]

end Sys2Proof.Machine

namespace Sys2Proof.Proofs

open Sys2Proof.Machine

/-- Settles O35: the update is eight shifts of the XOR, and a shift is halving, with 0x8C added where the number is
odd. -/
theorem crcUpdateIsReflectedShift : Obligations.CrcUpdateIsReflectedShift := by
  refine ⟨cksUpdate_crc8_eq_zero_xor, fun c => ?_, fun acc b => ?_⟩
  · split
    case isTrue hodd => exact toNat_crcShift_of_odd hodd
    case isFalse heven => exact toNat_crcShift_of_not_odd heven
  · rw [cksUpdate_crc8, crcShifts_eight]

end Sys2Proof.Proofs

end

/-! SUPPORT. Decoder and encoder are inverse (30_encoding.md): what the word of each operation decodes to, and that wire
bytes decode to a well-formed frame only. -/

section

namespace Sys2Proof

/-! ### Words put together by the encoder -/

/-- A command word decodes by its `cmd_op`, with its `cmd_arg` as operand (R99). -/
theorem decodeCommand_commandWord (op : BitVec 2) (arg : BitVec 16) :
    decodeCommand (commandWord op arg) =
      if op = 0b00#2 then .decode else if op = 0b01#2 then .encode arg
      else if op = 0b10#2 then .setTimeout arg else .cmdReserved := by
  obtain ⟨hop, harg⟩ := field_commandWord op arg
  simp only [decodeCommand, hop, harg]

/-- A store word decodes by `app_sel` and `app_we`, with its address and data as operands (R100). -/
theorem decodeStore_storeWord (sel we : Bool) (addr : BitVec 6) (data : Byte) :
    decodeStore (storeWord sel we addr data) =
      match sel, we with
      | false, true => .outw addr data
      | false, false => .outr addr
      | true, false => .inr addr
      | true, true => .storeReserved := by
  obtain ⟨htop, haddr, hdata⟩ := field_storeWord sel we addr data
  simp only [decodeStore, htop, haddr, hdata]
  cases sel <;> cases we <;> rfl

theorem wellFormed_frame_iff (items : List Item) (c : Byte) :
    (Instr.frame items c).wellFormed = true ↔ items.length ≤ 40 := by
  simp [Instr.wellFormed, numSlots]

/-- Decoding gives back every well-formed operation. -/
theorem decode_encode {i : Instr} (h : i.wellFormed = true) : decode (encode i) = .ok i := by
  cases i with
  | decode | encode _ | setTimeout _ | cmdReserved => simp [encode, decodeCommand_commandWord]
  | outw _ _ | outr _ | inr _ | storeReserved => simp [encode, decodeStore_storeWord]
  | frame items c => exact (decode_wire_iff _ _).mpr ⟨items, c, rfl, (wellFormed_frame_iff items c).mp h, rfl⟩

end Sys2Proof

namespace Sys2Proof.Proofs

/-- Settles O4: each word's fields are read back, and a frame of at most 40 pairs reads back as itself. -/
theorem decodeOfEncode : Obligations.DecodeOfEncode :=
  fun _ h => decode_encode h

/-- Settles O5: what decodes on the wire is a frame of at most 40 pairs, byte for byte. -/
theorem encodeOfDecodedWire : Obligations.EncodeOfDecodedWire := by
  intro bytes i h
  obtain ⟨items, c, rfl, hlen, rfl⟩ := (decode_wire_iff bytes i).mp h
  exact ⟨(wellFormed_frame_iff items c).mpr hlen, rfl⟩

/-- Settles O1, by evaluating the decoder on the nine words. -/
theorem writtenOutWordsDecode : Obligations.WrittenOutWordsDecode := by
  refine ⟨?_, ?_, ?_, ?_, ?_, ?_, ?_, ?_, ?_⟩
  all_goals decide

end Sys2Proof.Proofs

end

/-! SUPPORT. What a step can do to each part of the state, said once: the state the sequencer starts from, its move, and
the write access after it. The statements about single steps read their part off. -/

section

namespace Sys2Proof.Machine

variable {s t u : State} {i : Inputs}

/-! ### The state before and after the sequencer's move -/

/-- `s` when the sequencer comes to move: the cycle has begun, its bytes have arrived and its read access is done. -/
def State.begun (s : State) (e : Bool) (r : Option Byte) : State :=
  { ((s.beginCycle s.lines).deliver s.lines.rxBytes) with appErr := e, appRdata := r }

section Begun

variable (s : State) (e : Bool) (r : Option Byte)

@[simp] theorem outStore_begun : (s.begun e r).outStore = s.outStore := rfl
@[simp] theorem inStore_begun : (s.begun e r).inStore = s.inStore := rfl
@[simp] theorem timeout_begun : (s.begun e r).timeout = s.timeout := rfl
@[simp] theorem lastCks_begun : (s.begun e r).lastCks = s.lastCks := rfl
@[simp] theorem acc_begun : (s.begun e r).acc = s.acc := rfl
@[simp] theorem phase_begun : (s.begun e r).phase = s.phase := rfl
@[simp] theorem t0_begun : (s.begun e r).t0 = s.t0 := rfl
@[simp] theorem len_begun : (s.begun e r).len = s.len := rfl
@[simp] theorem cnt_begun : (s.begun e r).cnt = s.cnt := rfl
@[simp] theorem pbuf_begun : (s.begun e r).pbuf = s.pbuf := rfl
@[simp] theorem rxq_begun : (s.begun e r).rxq = s.rxq ++ s.lines.rxBytes := rfl
@[simp] theorem txq_begun : (s.begun e r).txq = s.txq := rfl
@[simp] theorem now_begun : (s.begun e r).now = if s.lines.tick then s.now + 1 else s.now := rfl
@[simp] theorem resp_begun : (s.begun e r).resp = none := rfl
@[simp] theorem rxPop_begun : (s.begun e r).rxPop = false := rfl
@[simp] theorem tx_begun : (s.begun e r).tx = none := rfl
@[simp] theorem txTaken_begun : (s.begun e r).txTaken = false := rfl
@[simp] theorem build_begun : (s.begun e r).build = s.build := rfl
@[simp] theorem index_begun : (s.begun e r).index = s.index := rfl
@[simp] theorem itemCount_begun : (s.begun e r).itemCount = s.itemCount := rfl
@[simp] theorem presentedByte_begun : (s.begun e r).presentedByte = s.presentedByte := rfl

end Begun

/-- `u` after the write access of its cycle, which sets `OUT` and `app_err` at most. -/
def State.written (u : State) (out : Vector Byte numSlots) (e : Bool) : State :=
  { u with outStore := out, appErr := e }

section Written

variable (u : State) (out : Vector Byte numSlots) (e : Bool)

@[simp] theorem inStore_written : (u.written out e).inStore = u.inStore := rfl
@[simp] theorem timeout_written : (u.written out e).timeout = u.timeout := rfl
@[simp] theorem lastCks_written : (u.written out e).lastCks = u.lastCks := rfl
@[simp] theorem acc_written : (u.written out e).acc = u.acc := rfl
@[simp] theorem phase_written : (u.written out e).phase = u.phase := rfl
@[simp] theorem t0_written : (u.written out e).t0 = u.t0 := rfl
@[simp] theorem len_written : (u.written out e).len = u.len := rfl
@[simp] theorem cnt_written : (u.written out e).cnt = u.cnt := rfl
@[simp] theorem pbuf_written : (u.written out e).pbuf = u.pbuf := rfl
@[simp] theorem rxq_written : (u.written out e).rxq = u.rxq := rfl
@[simp] theorem txq_written : (u.written out e).txq = u.txq := rfl
@[simp] theorem now_written : (u.written out e).now = u.now := rfl
@[simp] theorem resp_written : (u.written out e).resp = u.resp := rfl
@[simp] theorem rxPop_written : (u.written out e).rxPop = u.rxPop := rfl
@[simp] theorem tx_written : (u.written out e).tx = u.tx := rfl
@[simp] theorem txTaken_written : (u.written out e).txTaken = u.txTaken := rfl
@[simp] theorem build_written : (u.written out e).build = u.build := rfl
@[simp] theorem index_written : (u.written out e).index = u.index := rfl

end Written

/-- A step without reset is one move of the sequencer from the begun cycle, and a write access after it. -/
theorem step_move (hr : s.lines.rst = false) (h : step s = .next t) :
    ∃ e r u out e', sequencer (sequencerGoes s.lines s) s.lines (s.begun e r) = .next u ∧ t = u.written out e' := by
  obtain ⟨e, r, u, hu, rfl | ⟨_, _, _, _, rfl⟩⟩ := step_cases hr h
  · exact ⟨e, r, t, t.outStore, t.appErr, hu, rfl⟩
  · exact ⟨e, r, u, _, _, hu, rfl⟩

/-- A reset step, field by field, is `resetBlock` after the arrivals (R270). -/
theorem step_reset (hr : s.lines.rst = true) (h : step s = .next t) :
    t = ((s.beginCycle s.lines).deliver s.lines.rxBytes).resetBlock := by
  rw [step, cycle_reset hr] at h
  exact (next_eq_next.mp h)

/-! ### The sequencer's move, by its lines and its phase -/

theorem sequencer_of_idle {go : Bool} (hp : s.phase = .idle) (hv : i.cmdValid = false) :
    sequencer go i s = .next s := by
  simp [sequencer, hp, hv]

theorem sequencer_of_command {go : Bool} (hp : s.phase = .idle) (hv : i.cmdValid = true) :
    sequencer go i s = exec (decodeCommand i.commandWord) s := by
  simp [sequencer, hp, hv]

theorem sequencer_of_still (hp : s.phase ≠ .idle) : sequencer false i s = .next s := by
  simp [sequencer, hp]

theorem sequencer_of_go (hp : s.phase ≠ .idle) : sequencer true i s = phaseStep i.txReady s := by
  simp [sequencer, hp]

/-! ### What a move of the sequencer can do -/

/-- What one move of the sequencer from `s` to `t`, under the lines `i`, can do to each part of the state. -/
structure MoveEffects (i : Inputs) (s t : State) : Prop where
  timeout : t.timeout = s.timeout ∨
    s.phase = .idle ∧ i.cmdValid = true ∧ decodeCommand i.commandWord = .setTimeout t.timeout ∧ t.resp = some .ok
  inStore : t.inStore = s.inStore ∨ s.phase = .dApply ∧ ∃ id v, s.pbuf[2 * s.index]? = some id ∧
    s.pbuf[2 * s.index + 1]? = some v ∧ t.inStore = s.inStore.setIfInBounds id.toNat v
  lastCks : t.lastCks = s.lastCks ∨
    (s.phase = .eBuild ∧ s.itemCount ≤ s.index ∨ s.phase = .dRead ∧ s.len.toNat ≤ s.index) ∧
      t.lastCks = cksFinal s.build.cksAlg s.acc
  rxq : t.rxq = s.rxq ∧ t.rxPop = s.rxPop ∨ (∃ b, b :: t.rxq = s.rxq) ∧ t.rxPop = true ∧
    (s.phase = .dSync ∨ s.phase = .dLen ∨ s.phase = .dRead ∨ s.phase = .dCks ∨ s.phase = .dEnd)
  txq : t.txq = s.txq ∧ t.txTaken = s.txTaken ∨ ∃ b, t.txq = s.txq ++ [b] ∧ t.txTaken = true ∧ t.tx = some b ∧
    s.presentedByte = some b ∧ i.txReady = true
  resp : t.resp = s.resp ∨ t.phase = .idle ∧ (s.phase ≠ .idle ∨ i.cmdValid = true)
  timeoutError : t.resp = s.resp ∨ t.resp ≠ some .timeoutError ∨ s.timedOut = true
  stallOk : t.tx = s.tx ∨ t.txTaken = true ∨ t.tx = t.presentedByte

/-- Nothing happens. -/
theorem MoveEffects.refl (i : Inputs) (s : State) : MoveEffects i s s := by
  constructor <;> exact .inl (by simp)

/-- A command is accepted. -/
theorem MoveEffects.accept (hp : s.phase = .idle) (hv : i.cmdValid = true)
    (h : exec (decodeCommand i.commandWord) s = .next t) : MoveEffects i s t := by
  rcases exec_decodeCommand_eq_next h with ⟨_, h⟩ | ⟨c, _, h⟩ | ⟨d, hd, h⟩ | ⟨_, rfl⟩
  · rcases execDecode_eq_next.mp h with ⟨_, rfl⟩ | ⟨_, rfl⟩
    · exact .refl i t
    · constructor <;> split <;> simp [hv]
  · rcases execEncode_eq_next.mp h with ⟨_, rfl⟩ | ⟨_, rfl⟩
    · exact .refl i t
    · constructor <;> split <;> simp [hv]
  · rcases execSetTimeout_eq_next.mp h with ⟨_, rfl⟩ | ⟨_, rfl⟩
    · exact .refl i t
    · constructor <;> simp [hp, hv, hd]
  · exact .refl i t

/-- One step of ENCODE's phases. -/
theorem MoveEffects.build (hp : s.phase = .eBuild) (h : stepBuild s = .next t) : MoveEffects i s t := by
  rcases stepBuild_eq_next.mp h with ⟨v, _, _, rfl⟩ | ⟨hi, rfl⟩ <;> constructor <;> simp [hp]
  exact .inr hi

/-- A byte presented and not taken changes `tx` only. -/
theorem MoveEffects.offer {b : Byte} (hb : s.presentedByte = some b) : MoveEffects i s (s.offerTx b) := by
  have hsame : (s.offerTx b).presentedByte = some b := hb
  constructor <;> simp [hsame]

/-- A byte presented and taken enters TXQ; `CNT` and `PHASE` may go on, or the response OK comes. -/
theorem MoveEffects.send {b : Byte} {c : BitVec 7} {p : Phase} {r : Option Status} (hb : s.presentedByte = some b)
    (hready : i.txReady = true) (hbusy : s.phase ≠ .idle) (hr : r = s.resp ∨ r = some .ok ∧ p = .idle) :
    MoveEffects i s { s.sendTx b with cnt := c, phase := p, resp := r } := by
  rcases hr with rfl | ⟨rfl, rfl⟩ <;> constructor <;> simp [hb, hready, hbusy]

/-- A wait that ends with TIMEOUT_ERROR only when the time is up. -/
theorem MoveEffects.await (hbusy : s.phase ≠ .idle) :
    MoveEffects i s (if s.timedOut then s.raise .timeoutError else s) := by
  split
  case isTrue hout => constructor <;> simp [hbusy, hout]
  case isFalse => exact .refl i s

/-- A byte is popped, and nothing but `T0`, `LEN`, `PHASE`, `CNT`, `ACC`, `PBUF` and the response follows from it. -/
theorem MoveEffects.pop {b : Byte} {q : List Byte} {t0 : Tick} {len : Byte} {p : Phase} {c : BitVec 7} {acc : Byte}
    {buf : Vector Byte pbufDepth} {r : Option Status} (hq : s.rxq = b :: q)
    (hp : s.phase = .dSync ∨ s.phase = .dLen ∨ s.phase = .dRead ∨ s.phase = .dCks ∨ s.phase = .dEnd)
    (hr : r = s.resp ∨ p = .idle ∧ (r ≠ some .timeoutError ∨ s.timedOut = true)) :
    MoveEffects i s
      { s.dropHead with t0 := t0, len := len, phase := p, cnt := c, acc := acc, pbuf := buf, resp := r } := by
  have hbusy : s.phase ≠ .idle := by rintro h; simp [h] at hp
  rcases hr with rfl | ⟨rfl, hr⟩ <;> constructor <;> simp [hq, hp, hbusy]
  exact .inr hr

theorem MoveEffects.sync (hp : s.phase = .dSync) (h : stepSync s = .next t) : MoveEffects i s t := by
  rcases stepSync_eq_next.mp h with ⟨_, rfl⟩ | ⟨b, q, hq, rfl⟩
  · constructor <;> simp [hp]
  · split
    · exact .pop hq (.inl hp) (.inl rfl)
    split
    · exact .pop hq (.inl hp) (.inr ⟨rfl, .inr ‹_›⟩)
    · exact .pop hq (.inl hp) (.inl rfl)

theorem MoveEffects.length (hp : s.phase = .dLen) (h : stepLength s = .next t) : MoveEffects i s t := by
  rcases stepLength_eq_next.mp h with ⟨b, q, hq, rfl⟩ | ⟨_, rfl⟩
  · split
    · exact .pop hq (.inr (.inl hp)) (.inl rfl)
    · exact .pop hq (.inr (.inl hp)) (.inr ⟨rfl, .inl nofun⟩)
  · exact .await (by simp [hp])

theorem MoveEffects.body (hp : s.phase = .dBody) (h : stepBody s = .next t) : MoveEffects i s t := by
  rw [stepBody_eq_next.mp h]
  split
  · constructor <;> simp [hp]
  · exact .await (by simp [hp])

theorem MoveEffects.read (hp : s.phase = .dRead) (h : stepRead s = .next t) : MoveEffects i s t := by
  rcases stepRead_eq_next.mp h with ⟨b, q, _, _, hq, rfl⟩ | ⟨hi, rfl⟩
  · exact .pop hq (.inr (.inr (.inl hp))) (.inl rfl)
  · constructor <;> simp [hp, hi]

theorem MoveEffects.compareChecksum (hp : s.phase = .dCks) (h : stepCompareChecksum s = .next t) :
    MoveEffects i s t := by
  obtain ⟨b, q, hq, rfl⟩ := stepCompareChecksum_eq_next.mp h
  split
  · exact .pop hq (.inr (.inr (.inr (.inl hp)))) (.inl rfl)
  · exact .pop hq (.inr (.inr (.inr (.inl hp)))) (.inr ⟨rfl, .inl nofun⟩)

theorem MoveEffects.compareEnd (hp : s.phase = .dEnd) (h : stepCompareEnd s = .next t) : MoveEffects i s t := by
  obtain ⟨b, q, hq, rfl⟩ := stepCompareEnd_eq_next.mp h
  split
  · exact .pop hq (.inr (.inr (.inr (.inr hp)))) (.inl rfl)
  · exact .pop hq (.inr (.inr (.inr (.inr hp)))) (.inr ⟨rfl, .inl nofun⟩)

theorem MoveEffects.apply (hp : s.phase = .dApply) (h : stepApply s = .next t) : MoveEffects i s t := by
  rcases stepApply_eq_next.mp h with ⟨id, v, _, hid, hv, rfl⟩ | ⟨_, rfl⟩
  · split <;> constructor <;> simp [hp, hid, hv]
  · constructor <;> simp [hp]

/-- Every step of an operation in progress has these effects and no others. -/
theorem phaseStep_effects (hbusy : s.phase ≠ .idle) (h : phaseStep i.txReady s = .next t) : MoveEffects i s t := by
  rcases phaseStep_cases hbusy h with ⟨hp, h⟩ | ⟨b, hb, _, h⟩ | ⟨hp, h⟩ | ⟨hp, h⟩ | ⟨hp, h⟩ | ⟨hp, h⟩ | ⟨hp, h⟩ |
    ⟨hp, h⟩ | ⟨hp, h⟩
  · exact .build hp (stepBuild_eq_next.mpr h)
  · rcases h with ⟨_, rfl⟩ | ⟨hready, ⟨_, rfl⟩ | ⟨_, rfl⟩ | ⟨_, rfl⟩ | ⟨_, rfl⟩ | ⟨_, rfl⟩⟩
    · exact .offer hb
    · exact .send hb hready hbusy (.inl rfl)
    · exact .send hb hready hbusy (.inl rfl)
    · split <;> exact .send hb hready hbusy (.inl rfl)
    · exact .send hb hready hbusy (.inl rfl)
    · exact .send hb hready hbusy (.inr ⟨rfl, rfl⟩)
  · exact .sync hp (stepSync_eq_next.mpr h)
  · exact .length hp (stepLength_eq_next.mpr h)
  · exact .body hp (stepBody_eq_next.mpr h)
  · exact .read hp (stepRead_eq_next.mpr h)
  · exact .compareChecksum hp (stepCompareChecksum_eq_next.mpr h)
  · exact .compareEnd hp (stepCompareEnd_eq_next.mpr h)
  · exact .apply hp (stepApply_eq_next.mpr h)

/-- Every move of the sequencer has these effects and no others. -/
theorem sequencer_effects {go : Bool} (h : sequencer go i s = .next t) : MoveEffects i s t := by
  rcases sequencer_eq_next h with ⟨_, _, rfl⟩ | ⟨hp, hv, h⟩ | ⟨_, _, rfl⟩ | ⟨hbusy, _, h⟩
  · exact .refl i t
  · exact .accept hp hv h
  · exact .refl i t
  · exact phaseStep_effects hbusy h

end Sys2Proof.Machine

end

/-! SUPPORT. The rules that hold of every single step, from every state: which step writes which register, the two
streams, the responses, and that a busy block ignores the command lines. -/

section

namespace Sys2Proof.Machine

variable {s t : State}

/-! ### The frames as equations -/

@[simp] theorem sameOut_iff : SameOut s t ↔ t.outStore = s.outStore :=
  ⟨fun h => Vector.ext fun a ha => by simpa [State.readOut, ha] using h a, fun h a => congrArg (·[a]?) h⟩

@[simp] theorem sameIn_iff : SameIn s t ↔ t.inStore = s.inStore :=
  ⟨fun h => Vector.ext fun a ha => by simpa [State.readIn, ha] using h a, fun h a => congrArg (·[a]?) h⟩

@[simp] theorem sameControl_iff : SameControl s t ↔ t.timeout = s.timeout ∧ t.lastCks = s.lastCks := Iff.rfl

@[simp] theorem sameInternal_iff : SameInternal s t ↔
    t.acc = s.acc ∧ t.t0 = s.t0 ∧ t.len = s.len ∧ t.cnt = s.cnt ∧ t.pbuf = s.pbuf := Iff.rfl

@[simp] theorem sameStreams_iff : SameStreams s t ↔ t.rxq = s.rxq ∧ t.txq = s.txq ∧ t.now = s.now := Iff.rfl

@[simp] theorem sameResponse_iff : SameResponse s t ↔
    t.resp = s.resp ∧ t.rxPop = s.rxPop ∧ t.tx = s.tx ∧ t.txTaken = s.txTaken := Iff.rfl

@[simp] theorem sameAccess_iff : SameAccess s t ↔ t.appErr = s.appErr ∧ t.appRdata = s.appRdata := Iff.rfl

@[simp] theorem sameModel_iff : SameModel s t ↔
    t.script = s.script ∧ t.rest = s.rest ∧ t.build = s.build ∧ t.draws = s.draws := Iff.rfl

/-! ### Single facts -/

/-- A step without reset writes a slot of `OUT` only by an OUTW to it. -/
theorem step_outStore (hr : s.lines.rst = false) (h : step s = .next t) :
    t.outStore = s.outStore ∨ s.lines.appEn = true ∧ ∃ a v, decodeStore s.lines.storeWord = .outw a v ∧
      t.outStore = s.outStore.setIfInBounds a.toNat v := by
  obtain ⟨e, r, u, hu, ht⟩ := step_cases hr h
  obtain ⟨hout, _⟩ := sequencer_frame hu
  rcases ht with rfl | ⟨hen, a, v, hd, rfl⟩
  · exact .inl hout
  · exact .inr ⟨hen, a, v, hd, by rw [hout]; rfl⟩

/-- A slot that one write changes is the slot written, and holds the byte. -/
theorem eq_of_setIfInBounds_ne {n k a : Nat} {v : Byte} {store : Vector Byte n}
    (h : (store.setIfInBounds k v)[a]? ≠ store[a]?) : k = a ∧ (store.setIfInBounds k v)[a]? = some v := by
  rw [Vector.getElem?_setIfInBounds] at h ⊢
  by_cases hka : k = a
  · subst hka
    by_cases hk : k < n
    · simp [hk]
    · simp [hk] at h
  · simp [hka] at h

/-- With the largest `TIMEOUT` no time is up (R282). -/
theorem not_timedOut_of_max (h : s.timeout = 0xFFFF) : s.timedOut = false := by
  have := (s.now - s.t0).isLt
  rw [← Bool.not_eq_true, s.timedOut_iff, h]
  simp only [BitVec.ofNat_eq_ofNat, BitVec.toNat_ofNat]
  omega

/-- A busy sequencer moves alike whatever stands on the command lines (R221). -/
theorem sequencer_busy_congr {go : Bool} {i j : Inputs} (hp : s.phase ≠ .idle) (hr : i.txReady = j.txReady) :
    sequencer go i s = sequencer go j s := by
  simp only [sequencer, if_neg hp, hr]

/-- Lines that differ on the command port only make the same cycle of a busy block. -/
theorem cycle_busy_congr {i j : Inputs} (hp : s.phase ≠ .idle) (hrst : j.rst = i.rst)
    (hbegin : s.beginCycle j = s.beginCycle i) (hrx : j.rxBytes = i.rxBytes) (hread : portReads j = portReads i)
    (hwrite : portWrites j = portWrites i) (hgo : sequencerGoes j s = sequencerGoes i s)
    (hready : j.txReady = i.txReady) : cycle j s = cycle i s := by
  obtain ⟨e, r, h⟩ := portReads_eq i ((s.beginCycle i).deliver i.rxBytes)
  simp only [cycle, arrive_eq, andThen_next, hrst, hbegin, hrx, hread, hwrite, hgo, h]
  rw [sequencer_busy_congr (i := j) (j := i) (by exact hp) hready]

end Sys2Proof.Machine

namespace Sys2Proof.Proofs

open Sys2Proof.Machine

/-- Settles O20: arrivals and accesses do not see the command lines, and a busy sequencer does not either. -/
theorem busyStepIgnoresCommandLines : Obligations.BusyStepIgnoresCommandLines := by
  intro s i v op arg hp
  exact cycle_busy_congr hp rfl rfl rfl rfl rfl rfl rfl

/-- Settles O32: only a step whose time is up answers TIMEOUT_ERROR. -/
theorem maximalTimeoutNeverFires : Obligations.MaximalTimeoutNeverFires := by
  intro s t hmax h
  by_cases hr : s.lines.rst = true
  · rw [step_reset hr h]
    nofun
  · obtain ⟨e, r, u, out, e', hu, rfl⟩ := step_move (by simpa using hr) h
    rcases (sequencer_effects hu).timeoutError with hresp | hresp | hout
    · simp [hresp]
    · simpa using hresp
    · rw [not_timedOut_of_max (s := s.begun e r) hmax] at hout
      cases hout

/-- Settles O44: the one write to `IN` is `D_APPLY`'s, at the id it applies. -/
theorem onlyApplyWritesIn : Obligations.OnlyApplyWritesIn := by
  intro s t a hr h hne
  obtain ⟨e, r, u, out, e', hu, rfl⟩ := step_move hr h
  rcases (sequencer_effects hu).inStore with hsame | ⟨hp, id, v, hid, hv, hset⟩
  · exact absurd (by simp [State.readIn, hsame]) hne
  · simp only [State.readIn, inStore_written, hset, inStore_begun] at hne ⊢
    obtain ⟨hida, hread⟩ := eq_of_setIfInBounds_ne hne
    exact ⟨hp, id, v, hid, hv, hida, hread⟩

/-- Settles O45: the one write to `OUT` is OUTW's, at its address. -/
theorem onlyOutwWritesOut : Obligations.OnlyOutwWritesOut := by
  intro s t a hr h hne
  rcases step_outStore hr h with hsame | ⟨hen, addr, v, hd, hset⟩
  · exact absurd (by simp [State.readOut, hsame]) hne
  · simp only [State.readOut, hset] at hne ⊢
    obtain ⟨haddr, hread⟩ := eq_of_setIfInBounds_ne hne
    exact ⟨hen, addr, v, hd, haddr, hread⟩

/-- Settles O46: the one write to `TIMEOUT` is the accepted SET_TIMEOUT's. -/
theorem onlySetTimeoutWritesTimeout : Obligations.OnlySetTimeoutWritesTimeout := by
  intro s t hr h hne
  obtain ⟨e, r, u, out, e', hu, rfl⟩ := step_move hr h
  exact (sequencer_effects hu).timeout.resolve_left hne

/-- Settles O47: `LASTCKS` is written where `E_BUILD` or `D_READ` finishes. -/
theorem lastCksWrittenAtTwoPoints : Obligations.LastCksWrittenAtTwoPoints := by
  intro s t hr h hne
  obtain ⟨e, r, u, out, e', hu, rfl⟩ := step_move hr h
  exact (sequencer_effects hu).lastCks.resolve_left hne

/-- Settles O48: arrivals join the tail before the sequencer moves, and its move pops one byte at most. -/
theorem receiveQueueIsFifo : Obligations.ReceiveQueueIsFifo := by
  intro s t h
  by_cases hr : s.lines.rst = true
  · rw [step_reset hr h]
    exact .inl ⟨rfl, rfl⟩
  · obtain ⟨e, r, u, out, e', hu, rfl⟩ := step_move (by simpa using hr) h
    exact (sequencer_effects hu).rxq

/-- Settles O49: a move adds the byte presented and taken to TXQ, or nothing. -/
theorem transmitRecordOnlyGrows : Obligations.TransmitRecordOnlyGrows := by
  intro s t h
  by_cases hr : s.lines.rst = true
  · rw [step_reset hr h]
    exact .inl ⟨rfl, rfl⟩
  · obtain ⟨e, r, u, out, e', hu, rfl⟩ := step_move (by simpa using hr) h
    exact (sequencer_effects hu).txq

/-- Settles O51: a move that responds enters IDLE, and was made by a phase or a presented command. -/
theorem responseLeavesTheBlockIdle : Obligations.ResponseLeavesTheBlockIdle := by
  intro s t status h hresp
  by_cases hr : s.lines.rst = true
  · rw [step_reset hr h] at hresp
    cases hresp
  · obtain ⟨e, r, u, out, e', hu, rfl⟩ := step_move (by simpa using hr) h
    rcases (sequencer_effects hu).resp with hsilent | hidle
    · rw [resp_written, hsilent] at hresp
      cases hresp
    · exact hidle

end Sys2Proof.Proofs

end

/-! SUPPORT. The machine's invariant (10_state.md sections 4 and 5): each phase keeps its registers in order and never
stops, so every step does. What the registers must meet is split from what the waiting byte must meet, since a step
presents its byte afresh. -/

section

namespace Sys2Proof.Machine

variable {s t : State} {ready : Bool}

/-! ### The registers of each phase -/

/-- The part of the invariant that speaks of the registers: counters, accumulator and checksum. -/
def State.RegsOk (s : State) : Prop := s.CountersOk ∧ s.ChecksumOk

theorem inv_iff : s.Inv ↔ s.RegsOk ∧ s.StallOk := by
  simp [State.Inv, State.RegsOk, and_assoc]

/-- A phase that transmits (R124 to R128). -/
def State.Transmits (s : State) : Prop :=
  s.phase = .eStart ∨ s.phase = .eLen ∨ s.phase = .ePay ∨ s.phase = .eCks ∨ s.phase = .eEnd

theorem regsOk_of_idle (hp : s.phase = .idle) : s.RegsOk := by
  simp [State.RegsOk, State.CountersOk, State.ChecksumOk, hp]

theorem regsOk_of_waiting (hp : s.phase = .dSync ∨ s.phase = .dLen) : s.RegsOk := by
  rcases hp with hp | hp <;> simp [State.RegsOk, State.CountersOk, State.ChecksumOk, hp]

theorem regsOk_eBuild_iff (hp : s.phase = .eBuild) :
    s.RegsOk ↔ s.lenLegal ∧ s.index ≤ s.itemCount ∧ s.accCovers (2 * s.index) ∧ s.idsDense s.index := by
  simp [State.RegsOk, State.CountersOk, State.ChecksumOk, hp, and_assoc]

theorem regsOk_transmits_iff (hp : s.Transmits) :
    s.RegsOk ↔ s.lenLegal ∧ s.cksCovers ∧ s.idsDense s.itemCount ∧ (s.phase = .ePay → s.index < s.len.toNat) := by
  rcases hp with hp | hp | hp | hp | hp <;> simp [State.RegsOk, State.CountersOk, State.ChecksumOk, hp]
  tauto

theorem regsOk_dBody_iff (hp : s.phase = .dBody) : s.RegsOk ↔ s.lenLegal := by
  simp [State.RegsOk, State.CountersOk, State.ChecksumOk, hp]

theorem regsOk_dRead_iff (hp : s.phase = .dRead) :
    s.RegsOk ↔ s.lenLegal ∧ s.index ≤ s.len.toNat ∧ s.len.toNat + 2 ≤ s.rxq.length + s.index ∧ s.accCovers s.index := by
  simp [State.RegsOk, State.CountersOk, State.ChecksumOk, hp, and_assoc]

theorem regsOk_dCks_iff (hp : s.phase = .dCks) : s.RegsOk ↔ s.lenLegal ∧ 2 ≤ s.rxq.length ∧ s.cksCovers := by
  simp [State.RegsOk, State.CountersOk, State.ChecksumOk, hp, and_assoc]

theorem regsOk_dEnd_iff (hp : s.phase = .dEnd) : s.RegsOk ↔ s.lenLegal ∧ 1 ≤ s.rxq.length ∧ s.cksCovers := by
  simp [State.RegsOk, State.CountersOk, State.ChecksumOk, hp, and_assoc]

theorem regsOk_dApply_iff (hp : s.phase = .dApply) :
    s.RegsOk ↔ s.lenLegal ∧ s.index ≤ s.itemCount ∧ s.cksCovers := by
  simp [State.RegsOk, State.CountersOk, State.ChecksumOk, hp, and_assoc]

theorem len_le_of_lenLegal (h : s.lenLegal) : s.len.toNat ≤ 80 :=
  ((legalLength_iff s.len).mp h).2

/-- The checksum of the payload, once the accumulator has taken all of it (R123, R149). -/
theorem cksCovers_finishCks (h : s.accCovers s.len.toNat) : s.finishCks.cksCovers := by
  rw [State.cksCovers, State.lastCks_finishCks, h, checksum, State.buffered_congr (State.pbuf_finishCks s)]
  rfl

/-! ### What each part of the invariant reads -/

theorem lenLegal_congr (hlen : t.len = s.len) : t.lenLegal ↔ s.lenLegal := by
  rw [State.lenLegal, State.lenLegal, hlen]

theorem index_congr (hcnt : t.cnt = s.cnt) : t.index = s.index := by
  rw [State.index, State.index, hcnt]

theorem itemCount_congr (hlen : t.len = s.len) : t.itemCount = s.itemCount := by
  rw [State.itemCount, State.itemCount, hlen]

theorem accCovers_congr {n : Nat} (hacc : t.acc = s.acc) (hbuf : t.pbuf = s.pbuf) (hbuild : t.build = s.build) :
    t.accCovers n ↔ s.accCovers n := by
  rw [State.accCovers, State.accCovers, hacc, hbuild, State.buffered_congr hbuf]

theorem cksCovers_congr (hcks : t.lastCks = s.lastCks) (hlen : t.len = s.len) (hbuf : t.pbuf = s.pbuf)
    (hbuild : t.build = s.build) : t.cksCovers ↔ s.cksCovers := by
  rw [State.cksCovers, State.cksCovers, hcks, hlen, hbuild, State.buffered_congr hbuf]

theorem idsDense_congr {n : Nat} (hbuf : t.pbuf = s.pbuf) : t.idsDense n ↔ s.idsDense n := by
  rw [State.idsDense, State.idsDense, hbuf]

/-! ### Each phase keeps them -/

/-- One more pair, covered by the accumulator (R122). -/
theorem accCovers_of_pair (hk : s.index < 40) (h : s.accCovers (2 * s.index)) (item : Item) :
    (((s.writeItem s.index item).updateCks item.id).updateCks item.value).accCovers (2 * (s.index + 1)) := by
  have hbuf := State.buffered_writeItem s hk item
  rw [State.accCovers, State.buffered_congr (s := s.writeItem s.index item) (by simp), hbuf,
    List.append_cons, cksAcc_append_singleton, cksAcc_append_singleton]
  simp only [State.acc_updateCks, State.acc_writeItem, State.build_updateCks, State.build_writeItem]
  rw [h]

/-- One more pair, whose id is its position (R93). -/
theorem idsDense_of_pair (hk : s.index < 40) (h : s.idsDense s.index) (v : Byte) :
    (s.writeItem s.index ⟨positionId s.cnt, v⟩).idsDense (s.index + 1) := by
  intro k hlt
  rcases Nat.lt_succ_iff_lt_or_eq.mp hlt with hlt | rfl
  · rw [pbuf_writeItem_of_ne (by omega) (by omega)]
    exact h k hlt
  · rw [pbuf_writeItem_id hk, positionId_eq]
    rfl

theorem stepBuild_keeps_regsOk (hp : s.phase = .eBuild) (h : s.RegsOk) (hs : stepBuild s = .next t) : t.RegsOk := by
  obtain ⟨hlen, hle, hacc, hids⟩ := (regsOk_eBuild_iff hp).mp h
  obtain ⟨hcount, htwice⟩ := s.itemCount_le hlen
  rcases stepBuild_eq_next.mp hs with ⟨v, hi, _, rfl⟩ | ⟨hge, rfl⟩
  · have hk : s.index < 40 := by omega
    have hindex : (((s.writeItem s.index ⟨positionId s.cnt, v⟩).updateCks (positionId s.cnt)).updateCks v).countUp.index =
        s.index + 1 := by
      rw [← s.index_countUp (by omega)]
      exact index_congr (by simp)
    refine (regsOk_eBuild_iff (by simp [hp])).mpr ⟨(lenLegal_congr (by simp)).mpr hlen, ?_⟩
    rw [hindex, itemCount_congr (s := s) (by simp)]
    exact ⟨hi, (accCovers_congr (by simp) (by simp) (by simp)).mpr (accCovers_of_pair hk hacc ⟨positionId s.cnt, v⟩),
      (idsDense_congr (by simp)).mpr (idsDense_of_pair hk hids v)⟩
  · have hall : s.index = s.itemCount := by omega
    rw [hall, htwice] at hacc
    refine (regsOk_transmits_iff (.inl rfl)).mpr ⟨(lenLegal_congr (by simp)).mpr hlen, ?_, ?_, nofun⟩
    · exact (cksCovers_congr (by simp) (by simp) (by simp) (by simp)).mpr (cksCovers_finishCks hacc)
    · rw [itemCount_congr (s := s) (by simp), ← hall]
      exact (idsDense_congr (by simp)).mpr hids

/-- What a transmit phase may change keeps them: only `CNT` in `E_PAY` matters. -/
theorem regsOk_of_transmitted {b : Byte} {c : BitVec 7} {p : Phase} (hp : s.Transmits) (h : s.RegsOk)
    (htx : ({ s.sendTx b with cnt := c, phase := p }).Transmits) (hc : p = .ePay → c.toNat < s.len.toNat) :
    ({ s.sendTx b with cnt := c, phase := p }).RegsOk := by
  obtain ⟨hlen, hcks, hids, _⟩ := (regsOk_transmits_iff hp).mp h
  exact (regsOk_transmits_iff htx).mpr ⟨(lenLegal_congr (by simp)).mpr hlen,
    (cksCovers_congr (by simp) (by simp) (by simp) (by simp)).mpr hcks, (idsDense_congr (by simp)).mpr hids, hc⟩

/-- The byte a transmit phase presents; it moves on only when the byte is taken. -/
theorem transmit_keeps_regsOk (hp : s.Transmits) (h : s.RegsOk) (hs : phaseStep ready s = .next t) : t.RegsOk := by
  obtain ⟨hlen, hcks, hids, hpay⟩ := (regsOk_transmits_iff hp).mp h
  have hle := len_le_of_lenLegal hlen
  have hoffer : ∀ b, (s.offerTx b).RegsOk := fun b => (regsOk_transmits_iff hp).mpr ⟨hlen, hcks, hids, hpay⟩
  rcases id hp with hp' | hp' | hp' | hp' | hp' <;> simp only [phaseStep, hp'] at hs
  · rcases stepSendStart_eq_next.mp hs with ⟨_, rfl⟩ | ⟨_, rfl⟩
    · exact hoffer _
    · exact regsOk_of_transmitted hp h (.inr (.inl rfl)) nofun
  · rcases stepSendLength_eq_next.mp hs with ⟨_, rfl⟩ | ⟨_, rfl⟩
    · exact hoffer _
    · by_cases hzero : s.len = 0
      · rw [if_pos hzero]
        exact regsOk_of_transmitted hp h (.inr (.inr (.inr (.inl rfl)))) nofun
      · rw [if_neg hzero]
        exact regsOk_of_transmitted hp h (.inr (.inr (.inl rfl))) fun _ =>
          Nat.pos_of_ne_zero fun h0 => hzero (BitVec.eq_of_toNat_eq h0)
  · obtain ⟨b, _, ⟨_, rfl⟩ | ⟨_, rfl⟩⟩ := stepSendPayload_eq_next.mp hs
    · exact hoffer _
    · have hi := hpay hp'
      split
      · exact regsOk_of_transmitted hp h (.inr (.inr (.inr (.inl rfl)))) nofun
      · refine regsOk_of_transmitted (p := s.phase) hp h hp fun _ => ?_
        have hindex : s.countUp.index = s.index + 1 := s.index_countUp (by omega)
        show s.countUp.index < _
        omega
  · rcases stepSendChecksum_eq_next.mp hs with ⟨_, rfl⟩ | ⟨_, rfl⟩
    · exact hoffer _
    · exact regsOk_of_transmitted hp h (.inr (.inr (.inr (.inr rfl)))) nofun
  · rcases stepSendEnd_eq_next.mp hs with ⟨_, rfl⟩ | ⟨_, rfl⟩
    · exact hoffer _
    · exact regsOk_of_idle rfl

theorem stepSync_keeps_regsOk (hp : s.phase = .dSync) (hs : stepSync s = .next t) : t.RegsOk := by
  rcases stepSync_eq_next.mp hs with ⟨_, rfl⟩ | ⟨b, q, _, rfl⟩
  · exact regsOk_of_idle rfl
  · split
    · exact regsOk_of_waiting (.inr rfl)
    split
    · exact regsOk_of_idle rfl
    · exact regsOk_of_waiting (.inl hp)

/-- A length is latched for `D_BODY` only when it is legal (R144). -/
theorem stepLength_keeps_regsOk (hp : s.phase = .dLen) (hs : stepLength s = .next t) : t.RegsOk := by
  rcases stepLength_eq_next.mp hs with ⟨b, q, _, rfl⟩ | ⟨_, rfl⟩
  · split
    · rename_i hb
      exact (regsOk_dBody_iff rfl).mpr hb
    · exact regsOk_of_idle rfl
  · split
    · exact regsOk_of_idle rfl
    · exact regsOk_of_waiting (.inr hp)

/-- Phase 4 begins with all its bytes in RXQ (R146, R147). -/
theorem stepBody_keeps_regsOk (hp : s.phase = .dBody) (h : s.RegsOk) (hs : stepBody s = .next t) : t.RegsOk := by
  have hlen := (regsOk_dBody_iff hp).mp h
  rw [stepBody_eq_next.mp hs]
  split
  · rename_i hbody
    have hq := (s.bodyArrived_iff hlen).mp hbody
    have hzero : (s.countReset.startCks.enter .dRead).index = 0 := by simp [State.index]
    refine (regsOk_dRead_iff rfl).mpr ⟨(lenLegal_congr (by simp)).mpr hlen, ?_⟩
    rw [hzero]
    refine ⟨Nat.zero_le _, by simpa using hq, ?_⟩
    simp [State.accCovers, State.buffered]
  split
  · exact regsOk_of_idle rfl
  · exact h

/-- The byte `D_READ` reads is covered by the accumulator (R148). -/
theorem stepRead_keeps_regsOk (hp : s.phase = .dRead) (h : s.RegsOk) (hs : stepRead s = .next t) : t.RegsOk := by
  obtain ⟨hlen, hle, hq, hacc⟩ := (regsOk_dRead_iff hp).mp h
  rcases stepRead_eq_next.mp hs with ⟨b, q, hi, hk, hbq, rfl⟩ | ⟨hge, rfl⟩
  · have hindex : ((s.dropHead.writeBuf s.index b).updateCks b).countUp.index = s.index + 1 := by
      rw [← s.index_countUp (by omega)]
      exact index_congr (by simp)
    refine (regsOk_dRead_iff (by simp [hp])).mpr ⟨(lenLegal_congr (by simp)).mpr hlen, ?_⟩
    rw [hindex]
    refine ⟨by simpa using hi, ?_, ?_⟩
    · simp [hbq] at hq ⊢
      omega
    · rw [State.accCovers, State.buffered_congr (s := s.writeBuf s.index b) (by simp), State.buffered_writeBuf s hk,
        cksAcc_append_singleton, State.build_countUp, State.build_updateCks, State.build_writeBuf, State.build_dropHead,
        ← hacc]
      rfl
  · have hall : s.index = s.len.toNat := by omega
    refine (regsOk_dCks_iff rfl).mpr ⟨(lenLegal_congr (by simp)).mpr hlen, ?_, ?_⟩
    · simp
      omega
    · exact (cksCovers_congr (by simp) (by simp) (by simp) (by simp)).mpr (cksCovers_finishCks (hall ▸ hacc))

theorem stepCompareChecksum_keeps_regsOk (hp : s.phase = .dCks) (h : s.RegsOk) (hs : stepCompareChecksum s = .next t) :
    t.RegsOk := by
  obtain ⟨hlen, hq, hcks⟩ := (regsOk_dCks_iff hp).mp h
  obtain ⟨b, q, hbq, rfl⟩ := stepCompareChecksum_eq_next.mp hs
  split
  · refine (regsOk_dEnd_iff rfl).mpr ⟨(lenLegal_congr (by simp)).mpr hlen, ?_, ?_⟩
    · simp [hbq] at hq ⊢
      omega
    · exact (cksCovers_congr (by simp) (by simp) (by simp) (by simp)).mpr hcks
  · exact regsOk_of_idle rfl

theorem stepCompareEnd_keeps_regsOk (hp : s.phase = .dEnd) (h : s.RegsOk) (hs : stepCompareEnd s = .next t) :
    t.RegsOk := by
  obtain ⟨hlen, _, hcks⟩ := (regsOk_dEnd_iff hp).mp h
  obtain ⟨b, q, _, rfl⟩ := stepCompareEnd_eq_next.mp hs
  split
  · refine (regsOk_dApply_iff rfl).mpr ⟨(lenLegal_congr (by simp)).mpr hlen, ?_, ?_⟩
    · simp [State.index]
    · exact (cksCovers_congr (by simp) (by simp) (by simp) (by simp)).mpr hcks
  · exact regsOk_of_idle rfl

theorem stepApply_keeps_regsOk (hp : s.phase = .dApply) (h : s.RegsOk) (hs : stepApply s = .next t) : t.RegsOk := by
  obtain ⟨hlen, hle, hcks⟩ := (regsOk_dApply_iff hp).mp h
  obtain ⟨hcount, _⟩ := s.itemCount_le hlen
  rcases stepApply_eq_next.mp hs with ⟨id, v, hi, _, _, rfl⟩ | ⟨_, rfl⟩
  · have hindex : s.countUp.index = s.index + 1 := s.index_countUp (by omega)
    split <;> refine (regsOk_dApply_iff (by simp [hp])).mpr ⟨(lenLegal_congr (by simp)).mpr hlen, ?_, ?_⟩
    · rw [itemCount_congr (s := s) (by simp), index_congr (s := s.countUp) (by simp), hindex]
      exact hi
    · exact (cksCovers_congr (by simp) (by simp) (by simp) (by simp)).mpr hcks
    · rw [itemCount_congr (s := s) (by simp), hindex]
      exact hi
    · exact (cksCovers_congr (by simp) (by simp) (by simp) (by simp)).mpr hcks
  · exact regsOk_of_idle rfl

theorem phaseStep_keeps_regsOk (h : s.RegsOk) (hs : phaseStep ready s = .next t) : t.RegsOk := by
  cases hp : s.phase with
  | idle => rw [phaseStep, hp] at hs; cases hs; exact h
  | eStart => exact transmit_keeps_regsOk (.inl hp) h hs
  | eLen => exact transmit_keeps_regsOk (.inr (.inl hp)) h hs
  | ePay => exact transmit_keeps_regsOk (.inr (.inr (.inl hp))) h hs
  | eCks => exact transmit_keeps_regsOk (.inr (.inr (.inr (.inl hp)))) h hs
  | eEnd => exact transmit_keeps_regsOk (.inr (.inr (.inr (.inr hp)))) h hs
  | eBuild => rw [phaseStep, hp] at hs; exact stepBuild_keeps_regsOk hp h hs
  | dSync => rw [phaseStep, hp] at hs; exact stepSync_keeps_regsOk hp hs
  | dLen => rw [phaseStep, hp] at hs; exact stepLength_keeps_regsOk hp hs
  | dBody => rw [phaseStep, hp] at hs; exact stepBody_keeps_regsOk hp h hs
  | dRead => rw [phaseStep, hp] at hs; exact stepRead_keeps_regsOk hp h hs
  | dCks => rw [phaseStep, hp] at hs; exact stepCompareChecksum_keeps_regsOk hp h hs
  | dEnd => rw [phaseStep, hp] at hs; exact stepCompareEnd_keeps_regsOk hp h hs
  | dApply => rw [phaseStep, hp] at hs; exact stepApply_keeps_regsOk hp h hs

/-! ### Acceptance and the whole step -/

/-- ENCODE's accepting step starts with a legal length and nothing built (R121). -/
theorem regsOk_of_accepted_encode {c : BitVec 16} (hc : c.toNat ≤ 40) :
    (((s.latchLength (lengthOfCount c)).countReset.startCks).enter .eBuild).RegsOk := by
  have hlen := toNat_lengthOfCount hc
  refine (regsOk_eBuild_iff rfl).mpr ⟨?_, ?_, ?_, ?_⟩
  · refine (legalLength_iff _).mpr ?_
    simp only [State.len_enter, State.len_startCks, State.len_countReset, State.len_latchLength, hlen]
    omega
  · simp [State.index]
  · simp [State.accCovers, State.buffered, State.index]
  · simp [State.idsDense, State.index]

theorem sequencer_keeps_regsOk {go : Bool} {i : Inputs} (h : s.RegsOk) (hs : sequencer go i s = .next t) :
    t.RegsOk := by
  rcases sequencer_cases hs with rfl | ⟨hp, _, ⟨_, rfl⟩ | ⟨c, _, rfl⟩ | ⟨d, _, rfl⟩⟩ | ⟨_, _, hs⟩
  · exact h
  · split
    · exact regsOk_of_idle rfl
    · exact regsOk_of_waiting (.inl rfl)
  · split
    · exact regsOk_of_accepted_encode ‹_›
    · exact regsOk_of_idle rfl
  · exact regsOk_of_idle rfl
  · exact phaseStep_keeps_regsOk h hs

/-- Bytes that arrive disturb nothing. -/
theorem regsOk_begun (h : s.RegsOk) (e : Bool) (r : Option Byte) : (s.begun e r).RegsOk := by
  have hinv : (s.begun e r).Inv :=
    State.inv_congr (s := { s with tx := none }) rfl rfl rfl (by simp) rfl rfl rfl rfl nofun (inv_iff.mpr ⟨h, nofun⟩)
  exact (inv_iff.mp hinv).1

/-- A byte that waits after a step is the one its phase presents. -/
theorem stallOk_of_sequencer {go : Bool} {i : Inputs} (htx : s.tx = none) (h : sequencer go i s = .next t) :
    t.StallOk := by
  intro hstall
  simp only [State.txStalled, Bool.and_eq_true, Bool.not_eq_true'] at hstall
  obtain ⟨hsome, hwaits⟩ := hstall
  rcases (sequencer_effects h).stallOk with hnone | htaken | hpresented
  · rw [hnone, htx] at hsome
    cases hsome
  · rw [hwaits] at htaken
    cases htaken
  · exact hpresented

/-- Every step from registers in order gives a state that meets the whole invariant. -/
theorem step_inv (h : s.RegsOk) (hs : step s = .next t) : t.Inv := by
  by_cases hr : s.lines.rst = true
  · rw [step_reset hr hs]
    exact inv_iff.mpr ⟨regsOk_of_idle rfl, nofun⟩
  · obtain ⟨e, r, u, out, e', hu, rfl⟩ := step_move (by simpa using hr) hs
    have hregs : u.RegsOk := sequencer_keeps_regsOk (regsOk_begun h e r) hu
    have hstall : u.StallOk := stallOk_of_sequencer (tx_begun s e r) hu
    exact inv_iff.mpr ⟨hregs, hstall⟩

/-! ### No stops -/

theorem pushTx_answers (s : State) (b : Byte) (ready : Bool) (k : State → State) : ∃ t, s.pushTx b ready k = .next t := by
  cases ready <;> exact ⟨_, rfl⟩

/-- Registers in order give every phase its step: indexes name cells, and phase 4 finds a byte to pop (R147). -/
theorem phaseStep_answers (ready : Bool) (h : s.RegsOk) : ∃ t, phaseStep ready s = .next t := by
  cases hp : s.phase with
  | idle => exact ⟨s, by rw [phaseStep, hp]⟩
  | eStart | eLen | eCks | eEnd => rw [phaseStep, hp]; exact pushTx_answers ..
  | eBuild =>
    obtain ⟨hlen, hle, _, _⟩ := (regsOk_eBuild_iff hp).mp h
    obtain ⟨hcount, _⟩ := s.itemCount_le hlen
    rw [phaseStep, hp]
    by_cases hi : s.index < s.itemCount
    · obtain ⟨v, hv⟩ := s.readOut_of_lt (i := s.index) (by omega)
      exact ⟨_, stepBuild_eq_next.mpr (.inl ⟨v, hi, hv, rfl⟩)⟩
    · exact ⟨_, stepBuild_eq_next.mpr (.inr ⟨by omega, rfl⟩)⟩
  | ePay =>
    obtain ⟨hlen, _, _, hi⟩ := (regsOk_transmits_iff (.inr (.inr (.inl hp)))).mp h
    have hi := hi hp
    have hle := len_le_of_lenLegal hlen
    obtain ⟨b, hb⟩ := s.buf_of_lt (i := s.index) (by omega)
    simp only [phaseStep, hp, stepSendPayload, hb]
    exact pushTx_answers ..
  | dSync =>
    rw [phaseStep, hp]
    cases hq : s.rxq with
    | nil => exact ⟨_, stepSync_eq_next.mpr (.inl ⟨hq, rfl⟩)⟩
    | cons b q => exact ⟨_, stepSync_eq_next.mpr (.inr ⟨b, q, hq, rfl⟩)⟩
  | dLen =>
    rw [phaseStep, hp]
    cases hq : s.rxq with
    | nil => exact ⟨_, stepLength_eq_next.mpr (.inr ⟨hq, rfl⟩)⟩
    | cons b q => exact ⟨_, stepLength_eq_next.mpr (.inl ⟨b, q, hq, rfl⟩)⟩
  | dBody => rw [phaseStep, hp]; exact ⟨_, stepBody_eq_next.mpr rfl⟩
  | dRead =>
    obtain ⟨hlen, hle, hq, _⟩ := (regsOk_dRead_iff hp).mp h
    have hle := len_le_of_lenLegal hlen
    rw [phaseStep, hp]
    by_cases hi : s.index < s.len.toNat
    · obtain ⟨b, q, hbq⟩ := List.exists_cons_of_length_pos (l := s.rxq) (by omega)
      exact ⟨_, stepRead_eq_next.mpr (.inl ⟨b, q, hi, by omega, hbq, rfl⟩)⟩
    · exact ⟨_, stepRead_eq_next.mpr (.inr ⟨by omega, rfl⟩)⟩
  | dCks =>
    obtain ⟨_, hq, _⟩ := (regsOk_dCks_iff hp).mp h
    obtain ⟨b, q, hbq⟩ := List.exists_cons_of_length_pos (l := s.rxq) (by omega)
    rw [phaseStep, hp]
    exact ⟨_, stepCompareChecksum_eq_next.mpr ⟨b, q, hbq, rfl⟩⟩
  | dEnd =>
    obtain ⟨_, hq, _⟩ := (regsOk_dEnd_iff hp).mp h
    obtain ⟨b, q, hbq⟩ := List.exists_cons_of_length_pos (l := s.rxq) (by omega)
    rw [phaseStep, hp]
    exact ⟨_, stepCompareEnd_eq_next.mpr ⟨b, q, hbq, rfl⟩⟩
  | dApply =>
    obtain ⟨hlen, _, _⟩ := (regsOk_dApply_iff hp).mp h
    obtain ⟨hcount, _⟩ := s.itemCount_le hlen
    rw [phaseStep, hp]
    by_cases hi : s.index < s.itemCount
    · obtain ⟨id, hid⟩ := s.buf_of_lt (i := 2 * s.index) (by omega)
      obtain ⟨v, hv⟩ := s.buf_of_lt (i := 2 * s.index + 1) (by omega)
      exact ⟨_, stepApply_eq_next.mpr (.inl ⟨id, v, hi, hid, hv, rfl⟩)⟩
    · exact ⟨_, stepApply_eq_next.mpr (.inr ⟨by omega, rfl⟩)⟩

/-- A presented command always answers. -/
theorem exec_decodeCommand_answers (w : BitVec 18) (s : State) : ∃ t, exec (decodeCommand w) s = .next t := by
  by_cases hp : s.phase = .idle
  · rcases decodeCommand_cases w with hw | ⟨c, hw⟩ | ⟨d, hw⟩ | hw <;> rw [hw]
    · exact ⟨_, execDecode_eq_next.mpr (.inr ⟨hp, rfl⟩)⟩
    · exact ⟨_, execEncode_eq_next.mpr (.inr ⟨hp, rfl⟩)⟩
    · exact ⟨_, execSetTimeout_eq_next.mpr (.inr ⟨hp, rfl⟩)⟩
    · exact ⟨_, execCmdReserved_eq_next.mpr rfl⟩
  · rcases decodeCommand_cases w with hw | ⟨c, hw⟩ | ⟨d, hw⟩ | hw <;> rw [hw]
    · exact ⟨s, execDecode_eq_next.mpr (.inl ⟨hp, rfl⟩)⟩
    · exact ⟨s, execEncode_eq_next.mpr (.inl ⟨hp, rfl⟩)⟩
    · exact ⟨s, execSetTimeout_eq_next.mpr (.inl ⟨hp, rfl⟩)⟩
    · exact ⟨s, execCmdReserved_eq_next.mpr rfl⟩

theorem sequencer_answers (go : Bool) (i : Inputs) (h : s.RegsOk) : ∃ t, sequencer go i s = .next t := by
  unfold sequencer
  split
  · split
    · exact exec_decodeCommand_answers _ s
    · exact ⟨s, rfl⟩
  split
  · exact phaseStep_answers i.txReady h
  · exact ⟨s, rfl⟩

/-- From registers in order every step answers a next state. -/
theorem step_answers (h : s.RegsOk) : ∃ t, step s = .next t := by
  by_cases hr : s.lines.rst = true
  · exact ⟨_, cycle_reset hr⟩
  · obtain ⟨e, r, hread⟩ := portReads_eq s.lines ((s.beginCycle s.lines).deliver s.lines.rxBytes)
    obtain ⟨u, hu⟩ := sequencer_answers (sequencerGoes s.lines s) s.lines (regsOk_begun h e r)
    rw [State.begun] at hu
    rw [step_eq (by simpa using hr), hread, andThen_next, hu, andThen_next]
    rcases portWrites_eq s.lines u with hw | ⟨_, _, _, _, hw⟩ <;> exact ⟨_, hw⟩

end Sys2Proof.Machine

namespace Sys2Proof.Proofs

open Sys2Proof.Machine

/-- Settles O41: the block is idle after reset, and no byte waits. -/
theorem resetMeetsInvariant : Obligations.ResetMeetsInvariant :=
  inv_iff.mpr ⟨regsOk_of_idle rfl, nofun⟩

/-- Settles O42: each phase keeps the registers in order, and a step presents its byte afresh. -/
theorem stepKeepsInvariant : Obligations.StepKeepsInvariant :=
  fun _ _ h hs => step_inv (inv_iff.mp h).1 hs

/-- Settles O43: with the registers in order every piece of a step answers. -/
theorem noStopUnderInvariant : Obligations.NoStopUnderInvariant :=
  fun _ h => step_answers (inv_iff.mp h).1

end Sys2Proof.Proofs

end

/-! SUPPORT. The checksum's properties (43_checksum.md, R207, R210) and APPLY as a function of the
payload (42_register_store.md section 2). -/

section

namespace Sys2Proof.Machine

/-! ### SUM2C as a number -/

theorem toNat_cksAcc_sum2c (p : List Byte) : (cksAcc .sum2c p).toNat = (p.map BitVec.toNat).sum % 256 := by
  induction p using List.reverseRecOn with
  | nil => rfl
  | append_singleton p b ih =>
    rw [cksAcc_append_singleton, cksUpdate_sum2c, BitVec.toNat_add, ih]
    simp

theorem toNat_checksum_sum2c (p : List Byte) :
    (checksum .sum2c p).toNat = (256 - (p.map BitVec.toNat).sum % 256) % 256 := by
  rw [checksum, cksFinal_sum2c, BitVec.toNat_sub, toNat_cksAcc_sum2c]
  simp

/-! ### One byte in the middle, and zeros in front -/

/-- The checksum tells two payloads apart that differ in one byte. -/
theorem checksum_ne_of_byte_ne (alg : CksAlg) (p q : List Byte) {a b : Byte} (h : a ≠ b) :
    checksum alg (p ++ a :: q) ≠ checksum alg (p ++ b :: q) := by
  intro heq
  have hacc := cksFinal_injective alg heq
  rw [cksAcc_append, cksAcc_append, List.foldl_cons, List.foldl_cons] at hacc
  exact h (cksUpdate_injective_byte alg _ (foldl_cksUpdate_injective alg q hacc))

/-- A mask of one bit of a byte is not zero. -/
theorem one_shiftLeft_ne_zero {j : Nat} (h : j < 8) : (1#8 <<< j) ≠ 0#8 := by
  intro hzero
  have hbit := congrArg (fun x : Byte => x.getLsbD j) hzero
  simp [h] at hbit

theorem xor_ne_self {b m : Byte} (h : m ≠ 0#8) : b ^^^ m ≠ b := by
  intro heq
  exact h (by simpa using congrArg (b ^^^ ·) heq)

/-- The initial accumulator is 0x00, and a zero byte leaves it there. -/
theorem cksAcc_replicate_zero (alg : CksAlg) (n : Nat) : cksAcc alg (List.replicate n 0x00) = 0 := by
  induction n with
  | zero => simp
  | succ n ih =>
    rw [List.replicate_succ', cksAcc_append_singleton, ih]
    cases alg with
    | sum2c => rfl
    | crc8 => exact crcShifts_zero 8

/-! ### APPLY -/

/-- One pair, then the rest (R181). -/
theorem applyPayload_cons (item : Item) (items : List Item) (store : Vector Byte numSlots) :
    applyPayload (payloadBytes (item :: items)) store =
      applyPayload (payloadBytes items)
        (if item.id.toNat < numSlots then store.setIfInBounds item.id.toNat item.value else store) := rfl

/-- What one pair leaves in a slot (R182, R183). -/
theorem getElem?_applied (item : Item) (store : Vector Byte numSlots) {a : Nat} (ha : a < 40) :
    (if item.id.toNat < numSlots then store.setIfInBounds item.id.toNat item.value else store)[a]? =
      if item.id.toNat = a then some item.value else store[a]? := by
  by_cases hid : item.id.toNat = a
  · subst hid
    have hslot : item.id.toNat < numSlots := ha
    rw [if_pos hslot, if_pos rfl, Vector.getElem?_setIfInBounds_self_of_lt hslot]
  · rw [if_neg hid]
    split
    · exact Vector.getElem?_setIfInBounds_ne hid
    · rfl

/-- After a payload each slot holds the value of the last pair that names it, or what it held. -/
theorem getElem?_applyPayload (items : List Item) (store : Vector Byte numSlots) {a : Nat} (ha : a < 40) :
    (applyPayload (payloadBytes items) store)[a]? =
      ((items.reverse.find? fun p => p.id.toNat == a).map Item.value).or store[a]? := by
  induction items generalizing store with
  | nil => rfl
  | cons item items ih =>
    rw [applyPayload_cons, ih, getElem?_applied item store ha, List.reverse_cons, List.find?_append]
    cases items.reverse.find? fun p => p.id.toNat == a with
    | some p => rfl
    | none => by_cases hid : item.id.toNat = a <;> simp [hid]

end Sys2Proof.Machine

namespace Sys2Proof.Proofs

open Sys2Proof.Machine

/-- Settles O34: the accumulator is the sum modulo 256, and the checksum its two's complement. -/
theorem sumChecksumIsNegatedSum : Obligations.SumChecksumIsNegatedSum :=
  toNat_checksum_sum2c

/-- Settles O36: a flipped bit makes another byte, and updates tell bytes apart. -/
theorem singleBitFlipIsDetected : Obligations.SingleBitFlipIsDetected :=
  fun alg p q _ _ hj => checksum_ne_of_byte_ne alg p q (xor_ne_self (one_shiftLeft_ne_zero hj))

/-- Settles O37: SUM2C's checksum negates the sum, and CRC8's update cancels an accumulator met by itself. -/
theorem checksumResidueIsZero : Obligations.ChecksumResidueIsZero := by
  constructor
  · intro p
    rw [toNat_checksum_sum2c]
    omega
  · intro p
    rw [checksum, cksFinal_crc8, cksAcc_append_singleton, checksum, cksFinal_crc8, cksUpdate_crc8, BitVec.xor_self]
    exact crcShifts_zero 8

/-- Settles O38: after the zeros the accumulator is still the initial one. -/
theorem leadingZerosDoNotCount : Obligations.LeadingZerosDoNotCount := by
  intro alg n p
  rw [checksum, checksum, cksAcc_append, cksAcc_replicate_zero, cksAcc, cksInit_eq_zero]

/-- Settles O39, by induction on the pairs. -/
theorem lastPairForAnIdWins : Obligations.LastPairForAnIdWins := by
  intro items store a ha
  rw [getElem?_applyPayload items store ha]
  cases items.reverse.find? fun p => p.id.toNat == a <;> rfl

end Sys2Proof.Proofs

end

/-! SUPPORT. The contents of `IN` stay inside (R22): every piece of a step does to a state with other contents of `IN` what
it does to the state itself, but for `IN` and the value an INR shows. -/

section

namespace Sys2Proof.Machine

variable {s t u : State} {i : Inputs} {ready : Bool}

/-- `s` with other contents of `IN` and another value on `app_rdata`. -/
def State.withIn (v : Vector Byte numSlots) (r : Option Byte) (s : State) : State :=
  { s with inStore := v, appRdata := r }

/-! ### The pieces of a step -/

/-- Whether a read access is rejected depends on its address only. -/
theorem isNone_slot (store : Vector Byte numSlots) (k : Nat) : store[k]?.isNone = decide (40 ≤ k) := by
  by_cases hk : k < 40
  · simp [hk]
  · simp [Nat.not_lt.mp hk]

theorem portReads_withIn (v : Vector Byte numSlots) (r : Option Byte) (i : Inputs) (s : State) :
    ∃ e r₁ r₂, portReads i s = .next { s with appErr := e, appRdata := r₁ } ∧
      portReads i (s.withIn v r) = .next (State.withIn v r₂ { s with appErr := e, appRdata := r₁ }) := by
  unfold portReads
  split
  case isFalse => exact ⟨s.appErr, s.appRdata, r, rfl, rfl⟩
  case isTrue hread =>
    simp only [Bool.and_eq_true, Bool.not_eq_true'] at hread
    obtain ⟨_, hread⟩ := hread
    rcases decodeStore_cases i.storeWord with ⟨a, b, hd⟩ | ⟨a, hd⟩ | ⟨a, hd⟩ | hd <;> rw [hd] at hread ⊢
    · cases hread
    · have hexec : ∀ w, exec (.outr a) w = .next (w.portRead (w.readOut a.toNat)) := fun _ => rfl
      exact ⟨_, _, _, by rw [hexec, portRead_eq], by rw [hexec, portRead_eq]; rfl⟩
    · have hexec : ∀ w, exec (.inr a) w = .next (w.portRead (w.readIn a.toNat)) := fun _ => rfl
      refine ⟨_, _, some ((v[a.toNat]?).getD 0x00), by rw [hexec, portRead_eq], ?_⟩
      rw [hexec, portRead_eq, State.readIn, State.readIn, isNone_slot, isNone_slot]
      rfl
    · exact ⟨true, s.appRdata, r, rfl, rfl⟩

theorem portWrites_withIn (v : Vector Byte numSlots) (r : Option Byte) (h : portWrites i s = .next t) :
    portWrites i (s.withIn v r) = .next (t.withIn v r) := by
  by_cases hwrite : (i.appEn && (decodeStore i.storeWord).writesSlot) = true
  · rw [portWrites, if_pos hwrite] at h ⊢
    obtain ⟨a, b, hd, _⟩ := exec_decodeStore_write (s := s) (Bool.and_eq_true_iff.mp hwrite).2
    have hexec : ∀ w, exec (.outw a b) w = execOutw a b w := fun _ => rfl
    rw [hd, hexec, execOutw_eq] at h ⊢
    cases h
    rfl
  · rw [portWrites, if_neg hwrite] at h ⊢
    cases h
    rfl

theorem exec_decodeCommand_withIn (v : Vector Byte numSlots) (r : Option Byte) {w : BitVec 18}
    (h : exec (decodeCommand w) s = .next t) :
    exec (decodeCommand w) (s.withIn v r) = .next (t.withIn v r) := by
  rcases exec_decodeCommand_eq_next h with ⟨hd, h⟩ | ⟨c, hd, h⟩ | ⟨d, hd, h⟩ | ⟨hd, rfl⟩ <;> rw [hd]
  · rcases execDecode_eq_next.mp h with ⟨hp, rfl⟩ | ⟨hp, rfl⟩
    · exact execDecode_eq_next.mpr (.inl ⟨hp, rfl⟩)
    · exact execDecode_eq_next.mpr (.inr ⟨hp, by rw [apply_ite (State.withIn v r)]; rfl⟩)
  · rcases execEncode_eq_next.mp h with ⟨hp, rfl⟩ | ⟨hp, rfl⟩
    · exact execEncode_eq_next.mpr (.inl ⟨hp, rfl⟩)
    · exact execEncode_eq_next.mpr (.inr ⟨hp, by rw [apply_ite (State.withIn v r)]; rfl⟩)
  · rcases execSetTimeout_eq_next.mp h with ⟨hp, rfl⟩ | ⟨hp, rfl⟩
    · exact execSetTimeout_eq_next.mpr (.inl ⟨hp, rfl⟩)
    · exact execSetTimeout_eq_next.mpr (.inr ⟨hp, rfl⟩)
  · exact execCmdReserved_eq_next.mpr rfl

/-- A phase that reads and writes nothing of `IN` steps alike under any contents of it. -/
theorem phaseStep_withIn_of_not_apply (v : Vector Byte numSlots) (r : Option Byte) (hp : s.phase ≠ .dApply)
    (h : phaseStep ready s = .next t) : phaseStep ready (s.withIn v r) = .next (t.withIn v r) := by
  have hphase : (s.withIn v r).phase = s.phase := rfl
  unfold phaseStep at h ⊢
  rw [hphase]
  cases hcase : s.phase <;> simp only [hcase] at h ⊢
  case idle => cases h; rfl
  case eBuild =>
    rcases stepBuild_eq_next.mp h with ⟨b, hi, hb, rfl⟩ | ⟨hi, rfl⟩
    · exact stepBuild_eq_next.mpr (.inl ⟨b, hi, hb, rfl⟩)
    · exact stepBuild_eq_next.mpr (.inr ⟨hi, rfl⟩)
  case eStart =>
    rcases stepSendStart_eq_next.mp h with ⟨hr, rfl⟩ | ⟨hr, rfl⟩
    · exact stepSendStart_eq_next.mpr (.inl ⟨hr, rfl⟩)
    · exact stepSendStart_eq_next.mpr (.inr ⟨hr, rfl⟩)
  case eLen =>
    rcases stepSendLength_eq_next.mp h with ⟨hr, rfl⟩ | ⟨hr, rfl⟩
    · exact stepSendLength_eq_next.mpr (.inl ⟨hr, rfl⟩)
    · exact stepSendLength_eq_next.mpr (.inr ⟨hr, rfl⟩)
  case ePay =>
    obtain ⟨b, hb, ⟨hr, rfl⟩ | ⟨hr, rfl⟩⟩ := stepSendPayload_eq_next.mp h
    · exact stepSendPayload_eq_next.mpr ⟨b, hb, .inl ⟨hr, rfl⟩⟩
    · exact stepSendPayload_eq_next.mpr ⟨b, hb, .inr ⟨hr, by rw [apply_ite (State.withIn v r)]; rfl⟩⟩
  case eCks =>
    rcases stepSendChecksum_eq_next.mp h with ⟨hr, rfl⟩ | ⟨hr, rfl⟩
    · exact stepSendChecksum_eq_next.mpr (.inl ⟨hr, rfl⟩)
    · exact stepSendChecksum_eq_next.mpr (.inr ⟨hr, rfl⟩)
  case eEnd =>
    rcases stepSendEnd_eq_next.mp h with ⟨hr, rfl⟩ | ⟨hr, rfl⟩
    · exact stepSendEnd_eq_next.mpr (.inl ⟨hr, rfl⟩)
    · exact stepSendEnd_eq_next.mpr (.inr ⟨hr, rfl⟩)
  case dSync =>
    rcases stepSync_eq_next.mp h with ⟨hq, rfl⟩ | ⟨b, q, hq, rfl⟩
    · exact stepSync_eq_next.mpr (.inl ⟨hq, rfl⟩)
    · exact stepSync_eq_next.mpr (.inr ⟨b, q, hq, by
        rw [apply_ite (State.withIn v r), apply_ite (State.withIn v r)]; rfl⟩)
  case dLen =>
    rcases stepLength_eq_next.mp h with ⟨b, q, hq, rfl⟩ | ⟨hq, rfl⟩
    · exact stepLength_eq_next.mpr (.inl ⟨b, q, hq, by rw [apply_ite (State.withIn v r)]; rfl⟩)
    · exact stepLength_eq_next.mpr (.inr ⟨hq, by rw [apply_ite (State.withIn v r)]; rfl⟩)
  case dBody =>
    refine stepBody_eq_next.mpr ?_
    rw [stepBody_eq_next.mp h, apply_ite (State.withIn v r), apply_ite (State.withIn v r)]
    rfl
  case dRead =>
    rcases stepRead_eq_next.mp h with ⟨b, q, hi, hk, hq, rfl⟩ | ⟨hi, rfl⟩
    · exact stepRead_eq_next.mpr (.inl ⟨b, q, hi, hk, hq, rfl⟩)
    · exact stepRead_eq_next.mpr (.inr ⟨hi, rfl⟩)
  case dCks =>
    obtain ⟨b, q, hq, rfl⟩ := stepCompareChecksum_eq_next.mp h
    exact stepCompareChecksum_eq_next.mpr ⟨b, q, hq, by rw [apply_ite (State.withIn v r)]; rfl⟩
  case dEnd =>
    obtain ⟨b, q, hq, rfl⟩ := stepCompareEnd_eq_next.mp h
    exact stepCompareEnd_eq_next.mpr ⟨b, q, hq, by rw [apply_ite (State.withIn v r)]; rfl⟩
  case dApply => exact absurd hcase hp

/-- `D_APPLY` writes the same pair into whatever `IN` holds. -/
theorem stepApply_withIn (v : Vector Byte numSlots) (r : Option Byte) (h : stepApply s = .next t) :
    ∃ v', stepApply (s.withIn v r) = .next (t.withIn v' r) := by
  rcases stepApply_eq_next.mp h with ⟨id, b, hi, hid, hb, rfl⟩ | ⟨hi, rfl⟩
  · refine ⟨if idInRange id then v.setIfInBounds id.toNat b else v, ?_⟩
    refine stepApply_eq_next.mpr (.inl ⟨id, b, hi, hid, hb, ?_⟩)
    split <;> rfl
  · exact ⟨v, stepApply_eq_next.mpr (.inr ⟨hi, rfl⟩)⟩

theorem sequencer_withIn (v : Vector Byte numSlots) (r : Option Byte) {go : Bool} (h : sequencer go i s = .next t) :
    ∃ v', sequencer go i (s.withIn v r) = .next (t.withIn v' r) := by
  have hphase : (s.withIn v r).phase = s.phase := rfl
  rcases sequencer_eq_next h with ⟨hp, hv, rfl⟩ | ⟨hp, hv, hexec⟩ | ⟨hp, rfl, rfl⟩ | ⟨hp, rfl, hs⟩ <;> rw [← hphase] at hp
  · exact ⟨v, sequencer_of_idle hp hv⟩
  · exact ⟨v, (sequencer_of_command hp hv).trans (exec_decodeCommand_withIn v r hexec)⟩
  · exact ⟨v, sequencer_of_still hp⟩
  · rw [sequencer_of_go hp]
    by_cases happly : s.phase = .dApply
    · rw [phaseStep, happly] at hs
      rw [phaseStep, hphase, happly]
      exact stepApply_withIn v r hs
    · exact ⟨v, phaseStep_withIn_of_not_apply v r happly hs⟩

/-- A step under other contents of `IN` ends in the same state but for `IN` and `app_rdata`, a reset step in the same. -/
theorem step_withIn (v : Vector Byte numSlots) (h : step s = .next t) :
    ∃ v' r', step { s with inStore := v } = .next (t.withIn v' r') := by
  have hlines : ({ s with inStore := v }).lines = s.lines := rfl
  by_cases hr : s.lines.rst = true
  · have hsame : step { s with inStore := v } = step s := by
      rw [step, step, hlines, cycle_reset hr, cycle_reset hr]
      rfl
    exact ⟨t.inStore, t.appRdata, hsame.trans h⟩
  · have hr : s.lines.rst = false := by simpa using hr
    have hbegin : (({ s with inStore := v }).beginCycle s.lines).deliver s.lines.rxBytes =
        ((s.beginCycle s.lines).deliver s.lines.rxBytes).withIn v none := rfl
    have hgo : sequencerGoes s.lines { s with inStore := v } = sequencerGoes s.lines s := rfl
    obtain ⟨e, r₁, r₂, hread, hread'⟩ :=
      portReads_withIn v none s.lines ((s.beginCycle s.lines).deliver s.lines.rxBytes)
    rw [step_eq hr, hread, andThen_next] at h
    obtain ⟨u, hu, hw⟩ := andThen_eq_next.mp h
    obtain ⟨v', hu'⟩ := sequencer_withIn v r₂ hu
    refine ⟨v', r₂, ?_⟩
    rw [step_eq (s := { s with inStore := v }) hr, hlines, hbegin, hread', andThen_next, hgo, hu', andThen_next]
    exact portWrites_withIn v' r₂ hw

end Sys2Proof.Machine

namespace Sys2Proof.Proofs

open Sys2Proof.Machine

/-- Settles O52: the two steps end in states that differ in `IN` and `app_rdata` only. -/
theorem inContentsStayInside : Obligations.InContentsStayInside := by
  intro s t u v ht hu
  obtain ⟨v', r', hu'⟩ := step_withIn v ht
  rw [hu'] at hu
  cases hu
  exact ⟨rfl, rfl, rfl, rfl, rfl, rfl, rfl, rfl, fun _ => rfl, rfl, rfl, rfl, rfl, rfl⟩

end Sys2Proof.Proofs

end

/-! SUPPORT. Runs up to the first response: an induction over the steps before it, and progress towards it. -/

section

namespace Sys2Proof.Machine

variable {s t u : State} {k : Nat} {status : Status}

/-- What every cycle to come keeps to, it keeps to along a run. -/
theorem scriptAll_run {p : Inputs → Prop} (h : s.scriptAll p) (hrun : run k s = .next t) : t.scriptAll p :=
  run_keeps (P := fun u => u.scriptAll p) (fun _ _ h hs => scriptAll_step h hs) h hrun

theorem run_build (hrun : run k s = .next t) : t.build = s.build := by
  refine run_keeps (P := fun u => u.build = s.build) (fun u v h hs => ?_) rfl hrun
  obtain ⟨_, _, hbuild⟩ := step_script hs
  exact hbuild.trans h

/-- One more step of a run. -/
theorem run_succ_of_run (hrun : run k s = .next u) (hs : step u = .next t) : run (k + 1) s = .next t := by
  rw [run_succ_last, hrun]
  exact hs

/-- The first response of a run comes in its first step, or in a step from a state `R` that the run reached silently;
`R` may speak of the number of steps made. -/
theorem respondsAt_cases {R : Nat → State → Prop} (hfirst : ∀ u, step s = .next u → u.resp = none → R 1 u)
    (hstep : ∀ j u v, run j s = .next u → R j u → step u = .next v → v.resp = none → R (j + 1) v)
    (h : s.respondsAt k t status) :
    step s = .next t ∨ ∃ j u, k = j + 1 ∧ run j s = .next u ∧ R j u ∧ step u = .next t := by
  obtain ⟨hpos, hrun, _, hsilent⟩ := h
  have hreach : ∀ j u, 0 < j → j < k → run j s = .next u → R j u := by
    intro j
    induction j with
    | zero => exact fun _ h => absurd h (Nat.lt_irrefl 0)
    | succ j ih =>
      intro v _ hjk hv
      have hnone := hsilent (j + 1) v (Nat.succ_pos j) hjk hv
      rw [run_succ_last] at hv
      obtain ⟨u, hu, huv⟩ := andThen_eq_next.mp hv
      rcases Nat.eq_zero_or_pos j with rfl | hj
      · cases hu
        exact hfirst v huv hnone
      · exact hstep j u v hu (ih u hj (by omega) hu) huv hnone
  obtain ⟨j, rfl⟩ : ∃ j, k = j + 1 := ⟨k - 1, by omega⟩
  rw [run_succ_last] at hrun
  obtain ⟨u, hu, hut⟩ := andThen_eq_next.mp hrun
  rcases Nat.eq_zero_or_pos j with rfl | hj
  · cases hu
    exact .inl hut
  · exact .inr ⟨j, u, rfl, hu, hreach j u hj (Nat.lt_succ_self j) hu, hut⟩

/-- Progress: where every step from `P` responds or keeps `P` and lowers `μ`, until `W` holds, the run responds or reaches
a state of `W`. -/
theorem respondsAt_or_reaches {P W : State → Prop} (μ : State → Nat)
    (hstep : ∀ u, P u → W u ∨ ∃ v, step u = .next v ∧ (v.resp ≠ none ∨ v.resp = none ∧ P v ∧ μ v < μ u)) (h : P s) :
    (∃ k t status, s.respondsAt k t status) ∨ ∃ k w, run k s = .next w ∧ P w ∧ W w := by
  induction hn : μ s using Nat.strong_induction_on generalizing s with
  | _ n ih =>
    rcases hstep s h with hW | ⟨v, hv, hresp | ⟨hnone, hP, hlt⟩⟩
    · exact .inr ⟨0, s, rfl, h, hW⟩
    · obtain ⟨status, hstatus⟩ := Option.ne_none_iff_exists'.mp hresp
      exact .inl ⟨1, v, status, respondsAt_one hv hstatus⟩
    · rcases ih (μ v) (hn ▸ hlt) hP rfl with ⟨k, t, status, hk⟩ | ⟨k, w, hk, hw⟩
      · exact .inl ⟨k + 1, t, status, respondsAt_step hv hnone hk⟩
      · exact .inr ⟨k + 1, w, by rw [run_succ, hv]; exact hk, hw⟩

/-- A response that comes in any case. -/
theorem respondsAt_of_progress {P : State → Prop} (μ : State → Nat)
    (hstep : ∀ u, P u → ∃ v, step u = .next v ∧ (v.resp ≠ none ∨ v.resp = none ∧ P v ∧ μ v < μ u)) (h : P s) :
    ∃ k t status, s.respondsAt k t status := by
  rcases respondsAt_or_reaches (W := fun _ => False) μ (fun u hu => .inr (hstep u hu)) h with hk | ⟨_, _, _, _, hfalse⟩
  · exact hk
  · exact hfalse.elim

end Sys2Proof.Machine

end

/-! SUPPORT. ENCODE from acceptance to response (40_encode.md, R121 to R130, R280): the frame in the registers, how much of
it is sent in each phase, and the moves that send it. -/

section

namespace Sys2Proof.Machine

variable {s t u : State} {i : Inputs} {ready : Bool}

/-! ### The frame in the registers -/

/-- The frame that `LEN`, `PBUF` and `LASTCKS` hold (R90). -/
def State.frame (s : State) : List Byte :=
  startByte :: s.len :: (s.buffered s.len.toNat ++ [s.lastCks, endByte])

/-- How many bytes of the frame are sent, by the phase (R124 to R128). -/
def State.sentCount (s : State) : Nat :=
  match s.phase with
  | .eLen => 1
  | .ePay => 2 + s.index
  | .eCks => 2 + s.len.toNat
  | .eEnd => 3 + s.len.toNat
  | _ => 0

/-- The values of the first `n` pairs in the payload buffer. -/
def State.values (s : State) (n : Nat) : List Byte :=
  (List.range n).map fun m => (s.pbuf[2 * m + 1]?).getD 0

theorem frame_congr (hlen : t.len = s.len) (hbuf : t.pbuf = s.pbuf) (hcks : t.lastCks = s.lastCks) :
    t.frame = s.frame := by
  rw [State.frame, State.frame, hlen, hcks, State.buffered_congr hbuf]

theorem length_frame (h : s.lenLegal) : s.frame.length = s.len.toNat + 4 := by
  simp [State.frame, s.length_buffered (len_le_of_lenLegal h)]

theorem buffered_succ {n : Nat} {b : Byte} (hb : s.pbuf[n]? = some b) :
    s.buffered (n + 1) = s.buffered n ++ [b] := by
  have hlist : s.pbuf.toList[n]? = some b := by simpa using hb
  rw [State.buffered, List.take_add_one, hlist]
  rfl

theorem getElem?_buffered {n m : Nat} (h : m < n) : (s.buffered n)[m]? = s.pbuf[m]? := by
  simp [State.buffered, h]

@[simp] theorem length_values (s : State) (n : Nat) : (s.values n).length = n := by
  simp [State.values]

theorem getElem?_values {n m : Nat} {v : Byte} (hm : m < n) (hv : s.pbuf[2 * m + 1]? = some v) :
    (s.values n)[m]? = some v := by
  simp [State.values, hm, hv]

/-- A buffer whose ids are the positions holds the payload of its values (R93). -/
theorem buffered_eq_payloadBytes {n : Nat} (hids : s.idsDense n) (hn : n ≤ 40) :
    s.buffered (2 * n) = payloadBytes (denseItems 0 (s.values n)) := by
  induction n with
  | zero => rfl
  | succ n ih =>
    obtain ⟨v, hv⟩ := s.buf_of_lt (i := 2 * n + 1) (by omega)
    have hvalues : s.values (n + 1) = s.values n ++ [v] := by simp [State.values, List.range_succ, hv]
    rw [hvalues, payloadBytes_denseItems_snoc, length_values, ← ih (fun k hk => hids k (by omega)) (by omega),
      show 2 * (n + 1) = 2 * n + 1 + 1 by omega, buffered_succ hv, buffered_succ (hids n (Nat.lt_succ_self n)),
      List.append_assoc]
    rfl

/-- In a transmit phase the registers hold ENCODE's frame of the buffered values, with its checksum (R129). -/
theorem frame_eq_encodeFrame {n : Nat} (hp : s.Transmits) (h : s.RegsOk) (hlen : s.len.toNat = 2 * n) :
    s.frame = encodeFrame s.build.cksAlg (s.values n) ∧
      s.lastCks = checksum s.build.cksAlg (payloadBytes (denseItems 0 (s.values n))) := by
  obtain ⟨hlegal, hcks, hids, _⟩ := (regsOk_transmits_iff hp).mp h
  have hn : n ≤ 40 := by have := len_le_of_lenLegal hlegal; omega
  have hcount : s.itemCount = n := by rw [State.itemCount, hlen]; omega
  have hpayload := buffered_eq_payloadBytes (hcount ▸ hids) hn
  rw [State.cksCovers, hlen, hpayload] at hcks
  have hlenByte : s.len = BitVec.ofNat 8 (2 * n) := by rw [← hlen]; simp
  refine ⟨?_, hcks⟩
  rw [State.frame, hcks, hlen, hpayload, encodeFrame, frameBytes, length_denseItems, length_values, hlenByte]

/-- A transmit phase presents the first byte not yet sent. -/
theorem presentedByte_eq_frame (hp : s.Transmits) (h : s.RegsOk) : s.presentedByte = s.frame[s.sentCount]? := by
  obtain ⟨hlegal, _, _, hpay⟩ := (regsOk_transmits_iff hp).mp h
  have hbuf := s.length_buffered (len_le_of_lenLegal hlegal)
  rcases hp with hp | hp | hp | hp | hp
  · simp [State.presentedByte, State.sentCount, State.frame, hp]
  · simp [State.presentedByte, State.sentCount, State.frame, hp]
  · have hi := hpay hp
    simp only [State.presentedByte, State.sentCount, State.frame, hp]
    rw [Nat.add_comm, List.getElem?_cons_succ, List.getElem?_cons_succ, List.getElem?_append_left (by omega),
      getElem?_buffered hi]
  · simp only [State.presentedByte, State.sentCount, State.frame, hp]
    rw [Nat.add_comm, List.getElem?_cons_succ, List.getElem?_cons_succ, List.getElem?_append_right (by omega), hbuf]
    simp
  · simp only [State.presentedByte, State.sentCount, State.frame, hp]
    rw [Nat.add_comm, List.getElem?_cons_succ, List.getElem?_cons_succ, List.getElem?_append_right (by omega), hbuf]
    simp

/-! ### ENCODE's moves -/

/-- What a step of an ENCODE in progress does (R122 to R128). -/
inductive EncodeMove (ready : Bool) (s : State) : State → Prop
  /-- one more pair is built -/
  | pair (v : Byte) (hp : s.phase = .eBuild) (hi : s.index < s.itemCount) (hv : s.readOut s.index = some v) :
      EncodeMove ready s
        (((s.writeItem s.index ⟨positionId s.cnt, v⟩).updateCks (positionId s.cnt)).updateCks v).countUp
  /-- every pair is built -/
  | built (hp : s.phase = .eBuild) (hi : s.itemCount ≤ s.index) : EncodeMove ready s (s.finishCks.enter .eStart)
  /-- the byte waits -/
  | wait (b : Byte) (hp : s.Transmits) (hb : s.presentedByte = some b) (hready : ready = false) :
      EncodeMove ready s (s.offerTx b)
  /-- the byte is taken, and the next one's turn has come -/
  | send (b : Byte) (c : BitVec 7) (p : Phase) (hp : s.Transmits) (hb : s.presentedByte = some b) (hready : ready = true)
      (htx : ({ s.sendTx b with cnt := c, phase := p }).Transmits)
      (hcount : ({ s.sendTx b with cnt := c, phase := p }).sentCount = s.sentCount + 1) :
      EncodeMove ready s { s.sendTx b with cnt := c, phase := p }
  /-- the end sentinel is taken -/
  | finish (hp : s.phase = .eEnd) (hready : ready = true) : EncodeMove ready s ((s.sendTx endByte).raise .ok)

/-- Every step of an ENCODE in progress is one of them. -/
theorem encodeMove_of_phaseStep (h : s.RegsOk) (hp : s.phase = .eBuild ∨ s.Transmits)
    (hs : phaseStep ready s = .next t) : EncodeMove ready s t := by
  rcases hp with hp | htx
  · rw [phaseStep_of_eBuild ready hp] at hs
    rcases stepBuild_eq_next.mp hs with ⟨v, hi, hv, rfl⟩ | ⟨hi, rfl⟩
    · exact .pair v hp hi hv
    · exact .built hp hi
  · obtain ⟨hlegal, _, _, hpay⟩ := (regsOk_transmits_iff htx).mp h
    have hle := len_le_of_lenLegal hlegal
    rcases id htx with hp | hp | hp | hp | hp <;> simp only [phaseStep, hp] at hs
    · have hb : s.presentedByte = some startByte := by simp [State.presentedByte, hp]
      rcases stepSendStart_eq_next.mp hs with ⟨hr, rfl⟩ | ⟨hr, rfl⟩
      · exact .wait _ htx hb hr
      · exact .send _ s.cnt .eLen htx hb hr (.inr (.inl rfl)) (by simp [State.sentCount, hp])
    · have hb : s.presentedByte = some s.len := by simp [State.presentedByte, hp]
      rcases stepSendLength_eq_next.mp hs with ⟨hr, rfl⟩ | ⟨hr, rfl⟩
      · exact .wait _ htx hb hr
      · by_cases hzero : s.len = 0
        · rw [if_pos hzero]
          exact .send _ 0 .eCks htx hb hr (.inr (.inr (.inr (.inl rfl)))) (by simp [State.sentCount, hp, hzero])
        · rw [if_neg hzero]
          exact .send _ 0 .ePay htx hb hr (.inr (.inr (.inl rfl))) (by simp [State.sentCount, hp, State.index])
    · obtain ⟨b, hpb, hs⟩ := stepSendPayload_eq_next.mp hs
      have hb : s.presentedByte = some b := by simp [State.presentedByte, hp, hpb]
      have hi := hpay hp
      have hindex : s.countUp.index = s.index + 1 := s.index_countUp (by omega)
      rcases hs with ⟨hr, rfl⟩ | ⟨hr, rfl⟩
      · exact .wait _ htx hb hr
      · split
        · refine .send _ s.cnt .eCks htx hb hr (.inr (.inr (.inr (.inl rfl)))) ?_
          simp [State.sentCount, hp]
          omega
        · refine .send _ (s.cnt + 1) s.phase htx hb hr htx ?_
          simp only [State.sentCount, hp]
          show 2 + s.countUp.index = _
          omega
    · have hb : s.presentedByte = some s.lastCks := by simp [State.presentedByte, hp]
      rcases stepSendChecksum_eq_next.mp hs with ⟨hr, rfl⟩ | ⟨hr, rfl⟩
      · exact .wait _ htx hb hr
      · refine .send _ s.cnt .eEnd htx hb hr (.inr (.inr (.inr (.inr rfl)))) ?_
        simp [State.sentCount, hp]
        omega
    · have hb : s.presentedByte = some endByte := by simp [State.presentedByte, hp]
      rcases stepSendEnd_eq_next.mp hs with ⟨hr, rfl⟩ | ⟨hr, rfl⟩
      · exact .wait _ htx hb hr
      · exact .finish hp hr

/-! ### ENCODE in progress -/

/-- An ENCODE of `count` slots in progress: TXQ holds `base` and what is sent of the frame, and `V` holds of each value
that is built. -/
structure Encoding (base : List Byte) (count : Nat) (V : Nat → Byte → Prop) (s : State) : Prop where
  phase : s.phase = .eBuild ∨ s.Transmits
  len : s.len.toNat = 2 * count
  txq : s.txq = base ++ s.frame.take s.sentCount
  values : ∀ m, m < count → (s.phase = .eBuild → m < s.index) → ∃ v, s.pbuf[2 * m + 1]? = some v ∧ V m v

variable {base : List Byte} {count : Nat} {V W : Nat → Byte → Prop}

theorem Encoding.mono (h : Encoding base count V s) (hVW : ∀ m v, V m v → W m v) : Encoding base count W s :=
  { h with values := fun m hm hi => (h.values m hm hi).imp fun v hv => ⟨hv.1, hVW m v hv.2⟩ }

theorem Encoding.itemCount_eq (h : Encoding base count V s) : s.itemCount = count := by
  rw [State.itemCount, h.len]
  omega

/-- It reads `PHASE`, `LEN`, `CNT`, `PBUF`, `LASTCKS` and TXQ only. -/
theorem Encoding.congr (h : Encoding base count V s) (hphase : t.phase = s.phase) (hlen : t.len = s.len)
    (hcnt : t.cnt = s.cnt) (hbuf : t.pbuf = s.pbuf) (hcks : t.lastCks = s.lastCks) (htxq : t.txq = s.txq) :
    Encoding base count V t := by
  have hsent : t.sentCount = s.sentCount := by
    rw [State.sentCount, State.sentCount, hphase, hlen, index_congr hcnt]
  refine ⟨?_, hlen ▸ h.len, ?_, ?_⟩
  · rw [State.Transmits, hphase]
    exact h.phase
  · rw [htxq, hsent, frame_congr hlen hbuf hcks]
    exact h.txq
  · rw [hphase, hbuf, index_congr hcnt]
    exact h.values

theorem Encoding.txq_of_eBuild (h : Encoding base count V s) (hp : s.phase = .eBuild) : s.txq = base := by
  simpa [State.sentCount, hp] using h.txq

/-- The pair built carries the value its slot holds; the pairs before it stay. -/
theorem Encoding.pair (h : Encoding base count V s) {v : Byte} (hp : s.phase = .eBuild) (hk : s.index < 40)
    (hv : V s.index v) : Encoding base count V
      (((s.writeItem s.index ⟨positionId s.cnt, v⟩).updateCks (positionId s.cnt)).updateCks v).countUp := by
  have hindex : (((s.writeItem s.index ⟨positionId s.cnt, v⟩).updateCks (positionId s.cnt)).updateCks v).countUp.index =
      s.index + 1 := by
    rw [← s.index_countUp (by omega)]
    exact index_congr (by simp)
  have hbase := h.txq_of_eBuild hp
  refine ⟨.inl (by simp [hp]), by simpa using h.len, by simp [State.sentCount, hp, hbase], ?_⟩
  rw [hindex]
  intro m hm hi
  have hbuf : (((s.writeItem s.index ⟨positionId s.cnt, v⟩).updateCks (positionId s.cnt)).updateCks v).countUp.pbuf =
      (s.writeItem s.index ⟨positionId s.cnt, v⟩).pbuf := by simp
  rw [hbuf]
  rcases Nat.lt_succ_iff_lt_or_eq.mp (hi (by simp [hp])) with hlt | rfl
  · rw [pbuf_writeItem_of_ne (by omega) (by omega)]
    exact h.values m hm fun _ => hlt
  · exact ⟨v, pbuf_writeItem_value hk _ s, hv⟩

theorem Encoding.built (h : Encoding base count V s) (hp : s.phase = .eBuild) (hi : s.itemCount ≤ s.index) :
    Encoding base count V (s.finishCks.enter .eStart) := by
  have hbase := h.txq_of_eBuild hp
  have hcount := h.itemCount_eq
  refine ⟨.inr (.inl rfl), by simpa using h.len, by simp [State.sentCount, hbase], fun m hm _ => ?_⟩
  simpa using h.values m hm fun _ => by omega

/-- The byte taken is the next one of the frame. -/
theorem take_frame_succ (htx : s.Transmits) (hregs : s.RegsOk) {b : Byte} (hb : s.presentedByte = some b) :
    s.frame.take (s.sentCount + 1) = s.frame.take s.sentCount ++ [b] := by
  rw [List.take_add_one, ← presentedByte_eq_frame htx hregs, hb]
  rfl

theorem Encoding.send (h : Encoding base count V s) (hregs : s.RegsOk) {b : Byte} {c : BitVec 7} {p : Phase}
    (hp : s.Transmits) (hb : s.presentedByte = some b) (htx : ({ s.sendTx b with cnt := c, phase := p }).Transmits)
    (hcount : ({ s.sendTx b with cnt := c, phase := p }).sentCount = s.sentCount + 1) :
    Encoding base count V { s.sendTx b with cnt := c, phase := p } := by
  have hnot : s.phase ≠ .eBuild := by
    intro hbuild
    simp [State.Transmits, hbuild] at hp
  refine ⟨.inr htx, by simpa using h.len, ?_, fun m hm _ => by simpa using h.values m hm fun hbuild => absurd hbuild hnot⟩
  rw [hcount, frame_congr (s := s) (by simp) (by simp) (by simp), take_frame_succ hp hregs hb, ← List.append_assoc,
    ← h.txq]
  rfl

/-- With the end sentinel the whole frame is sent. -/
theorem Encoding.finish (h : Encoding base count V s) (hregs : s.RegsOk) (hp : s.phase = .eEnd) :
    s.txq ++ [endByte] = base ++ s.frame := by
  have htx : s.Transmits := .inr (.inr (.inr (.inr hp)))
  obtain ⟨hlegal, _⟩ := (regsOk_transmits_iff htx).mp hregs
  have hb : s.presentedByte = some endByte := by simp [State.presentedByte, hp]
  have hall : s.frame.take (s.sentCount + 1) = s.frame := by
    refine List.take_of_length_le ?_
    rw [length_frame hlegal]
    simp [State.sentCount, hp]
    omega
  rw [h.txq, List.append_assoc, ← take_frame_succ htx hregs hb, hall]

/-- A move goes on with the same frame, or responds OK with the whole frame sent. -/
theorem Encoding.move (h : Encoding base count V s) (hregs : s.RegsOk) (hm : EncodeMove ready s t)
    (hV : ∀ v, s.phase = .eBuild → s.readOut s.index = some v → V s.index v) :
    (t.resp = s.resp ∧ Encoding base count V t) ∨
      (t.resp = some .ok ∧ t.txq = base ++ s.frame ∧ t.lastCks = s.lastCks ∧ s.Transmits) := by
  cases hm with
  | pair v hp hi hv =>
    obtain ⟨hlegal, _⟩ := (regsOk_eBuild_iff hp).mp hregs
    obtain ⟨hle, _⟩ := s.itemCount_le hlegal
    exact .inl ⟨by simp, h.pair hp (by omega) (hV v hp hv)⟩
  | built hp hi => exact .inl ⟨by simp, h.built hp hi⟩
  | wait b _ _ _ => exact .inl ⟨by simp, h.congr (by simp) (by simp) (by simp) (by simp) (by simp) (by simp)⟩
  | send b c p hp hb _ htx hcount => exact .inl ⟨by simp, h.send hregs hp hb htx hcount⟩
  | finish hp _ => exact .inr ⟨by simp, by simpa using h.finish hregs hp, by simp, .inr (.inr (.inr (.inr hp)))⟩

/-- A step of an ENCODE in progress, without reset, is one of its moves or none. -/
theorem encodeMove_of_step (hr : s.lines.rst = false) (hregs : s.RegsOk) (hp : s.phase = .eBuild ∨ s.Transmits)
    (hs : step s = .next t) :
    ∃ e r u out e', t = u.written out e' ∧
      (u = s.begun e r ∧ sequencerGoes s.lines s = false ∨ EncodeMove s.lines.txReady (s.begun e r) u) := by
  obtain ⟨e, r, u, out, e', hu, rfl⟩ := step_move hr hs
  have hbusy : (s.begun e r).phase ≠ .idle := by
    rw [phase_begun]
    rcases hp with hp | hp | hp | hp | hp | hp <;> simp [hp]
  refine ⟨e, r, u, out, e', rfl, ?_⟩
  cases hgo : sequencerGoes s.lines s with
  | false =>
    rw [hgo, sequencer_of_still hbusy, next_eq_next] at hu
    exact .inl ⟨hu, rfl⟩
  | true =>
    rw [hgo, sequencer_of_go hbusy] at hu
    exact .inr (encodeMove_of_phaseStep (regsOk_begun hregs e r) hp hu)

theorem Encoding.step (h : Encoding base count V s) (hr : s.lines.rst = false) (hregs : s.RegsOk)
    (hV : ∀ v, s.phase = .eBuild → s.readOut s.index = some v → V s.index v) (hs : step s = .next t) :
    (t.resp = none ∧ Encoding base count V t) ∨
      (t.resp = some .ok ∧ t.txq = base ++ s.frame ∧ t.lastCks = s.lastCks ∧ s.Transmits) := by
  obtain ⟨e, r, u, out, e', rfl, hu⟩ := encodeMove_of_step hr hregs h.phase hs
  have hbegun : Encoding base count V (s.begun e r) :=
    h.congr (by simp) (by simp) (by simp) (by simp) (by simp) (by simp)
  have hwritten : Encoding base count V u → Encoding base count V (u.written out e') := fun hu =>
    hu.congr (by simp) (by simp) (by simp) (by simp) (by simp) (by simp)
  rcases hu with ⟨rfl, _⟩ | hm
  · exact .inl ⟨by simp, hwritten hbegun⟩
  · rcases hbegun.move (regsOk_begun hregs e r) hm hV with ⟨hresp, hu⟩ | ⟨hresp, htxq, hcks, htx⟩
    · exact .inl ⟨by simpa using hresp, hwritten hu⟩
    · refine .inr ⟨by simpa using hresp, ?_, by simpa using hcks, htx⟩
      rw [txq_written, htxq, frame_congr (s := s) (by simp) (by simp) (by simp)]

/-! ### Acceptance -/

/-- The step that accepts a command runs it on the begun cycle. -/
theorem exec_of_accepts {c : Instr} (h : s.accepts c) (hs : step s = .next t) :
    ∃ e r u out e', exec c (s.begun e r) = .next u ∧ t = u.written out e' := by
  obtain ⟨hp, hr, hv, hd⟩ := h
  obtain ⟨e, r, u, out, e', hu, rfl⟩ := step_move hr hs
  rw [sequencer_of_command (by exact hp) hv, hd] at hu
  exact ⟨e, r, u, out, e', hu, rfl⟩

/-- An accepted ENCODE of at most 40 slots is in progress after its accepting step, silently (R121). -/
theorem encoding_of_accepts {c : BitVec 16} (h : s.accepts (.encode c)) (hc : c.toNat ≤ 40) (hs : step s = .next t) :
    t.resp = none ∧ t.phase = .eBuild ∧ Encoding s.txq c.toNat V t := by
  have hp := h.1
  obtain ⟨e, r, u, out, e', hu, rfl⟩ := exec_of_accepts h hs
  rcases execEncode_eq_next.mp hu with ⟨hbusy, _⟩ | ⟨_, rfl⟩
  · exact absurd hp hbusy
  rw [if_pos hc]
  refine ⟨by simp, by simp, .inl (by simp), ?_, by simp [State.sentCount], fun m _ hi => ?_⟩
  · simpa using toNat_lengthOfCount hc
  · have hnone := hi (by simp)
    simp [State.index] at hnone

/-! ### What ENCODE leaves alone -/

/-- `t` has the parameters, `IN`, `TIMEOUT` of `s`, and RXQ has lost nothing. -/
structure KeepsAside (s t : State) : Prop where
  build : t.build = s.build
  inStore : t.inStore = s.inStore
  timeout : t.timeout = s.timeout
  rxq : ∃ arrived, t.rxq = s.rxq ++ arrived

theorem KeepsAside.trans (h : KeepsAside s t) (h' : KeepsAside t u) : KeepsAside s u := by
  obtain ⟨a, ha⟩ := h.rxq
  obtain ⟨b, hb⟩ := h'.rxq
  exact ⟨h'.build.trans h.build, h'.inStore.trans h.inStore, h'.timeout.trans h.timeout,
    a ++ b, by rw [hb, ha, List.append_assoc]⟩

/-- A step that accepts ENCODE or is made by it pops nothing and writes neither `IN` nor `TIMEOUT`. -/
theorem keepsAside_of_step (hr : s.lines.rst = false)
    (hp : s.phase = .eBuild ∨ s.Transmits ∨ ∃ c, s.accepts (.encode c)) (hs : step s = .next t) : KeepsAside s t := by
  have hphase : s.phase = .eBuild ∨ s.Transmits ∨ s.phase = .idle := by
    rcases hp with hp | hp | ⟨c, hp, _⟩
    · exact .inl hp
    · exact .inr (.inl hp)
    · exact .inr (.inr hp)
  have hpop : ¬ (s.phase = .dSync ∨ s.phase = .dLen ∨ s.phase = .dRead ∨ s.phase = .dCks ∨ s.phase = .dEnd) ∧
      s.phase ≠ .dApply := by
    rcases hphase with h | (h | h | h | h | h) | h <;> simp [h]
  have hset : s.phase = .idle → ∀ d, decodeCommand s.lines.commandWord ≠ .setTimeout d := by
    intro hidle d
    rcases hp with hp | hp | ⟨c, _, _, _, hd⟩
    · simp [hidle] at hp
    · simp [State.Transmits, hidle] at hp
    · simp [hd]
  obtain ⟨_, _, hbuild⟩ := step_script hs
  obtain ⟨e, r, u, out, e', hu, rfl⟩ := step_move hr hs
  have heff := sequencer_effects hu
  refine ⟨hbuild, ?_, ?_, s.lines.rxBytes, ?_⟩
  · exact heff.inStore.resolve_right fun h => hpop.2 h.1
  · exact heff.timeout.resolve_right fun h => hset h.1 _ h.2.2.1
  · exact (heff.rxq.resolve_right fun h => hpop.1 h.2.2).1

/-! ### The response -/

/-- The value `v` stood in slot `m` of `OUT` when `E_BUILD` had come to it, in the first `k` states of the run from `s`. -/
def HeldWhenBuilt (s : State) (k m : Nat) (v : Byte) : Prop :=
  ∃ j u, j < k ∧ run j s = .next u ∧ u.phase = .eBuild ∧ u.index = m ∧ u.readOut m = some v

/-- After `k` steps of the run from `s` the state is `t`, in which the ENCODE of `count` slots accepted in `s` goes on. -/
structure EncodeInProgress (s : State) (count k : Nat) (t : State) : Prop where
  regs : t.RegsOk
  aside : KeepsAside s t
  encoding : Encoding s.txq count (HeldWhenBuilt s k) t

/-- After one more step. -/
theorem EncodeInProgress.encoding_succ (h : EncodeInProgress s count k t) :
    Encoding s.txq count (HeldWhenBuilt s (k + 1)) t :=
  h.encoding.mono fun _ _ ⟨j, w, hj, hw⟩ => ⟨j, w, Nat.lt_succ_of_lt hj, hw⟩

theorem encodeInProgress_of_accepts {c : BitVec 16} (hacc : s.accepts (.encode c)) (hc : c.toNat ≤ 40)
    (hs : step s = .next t) : EncodeInProgress s c.toNat 1 t where
  regs := (inv_iff.mp (step_inv (regsOk_of_idle hacc.1) hs)).1
  aside := keepsAside_of_step hacc.2.1 (.inr (.inr ⟨c, hacc⟩)) hs
  encoding := (encoding_of_accepts hacc hc hs).2.2

/-- The next step goes on with the command, or responds OK with the whole frame sent. -/
theorem EncodeInProgress.step (h : EncodeInProgress s count k t) (hrun : run k s = .next t) (hr : t.lines.rst = false)
    (ht : step t = .next u) :
    (u.resp = none ∧ EncodeInProgress s count (k + 1) u) ∨
      (u.resp = some .ok ∧ KeepsAside s u ∧ u.txq = s.txq ++ t.frame ∧ u.lastCks = t.lastCks ∧ t.Transmits) := by
  have haside : KeepsAside s u := h.aside.trans (keepsAside_of_step hr (h.encoding.phase.imp_right .inl) ht)
  have hheld : ∀ v, t.phase = .eBuild → t.readOut t.index = some v → HeldWhenBuilt s (k + 1) t.index v :=
    fun v hp hv => ⟨k, t, Nat.lt_succ_self k, hrun, hp, rfl, hv⟩
  rcases h.encoding_succ.step hr h.regs hheld ht with ⟨hnone, henc⟩ | ⟨hok, hsent⟩
  · exact .inl ⟨hnone, (inv_iff.mp (step_inv h.regs ht)).1, haside, henc⟩
  · exact .inr ⟨hok, haside, hsent⟩

/-- While the frame is transmitted it is the frame of values the slots held, and `LASTCKS` is its checksum. -/
theorem EncodeInProgress.frame (h : EncodeInProgress s count k t) (htx : t.Transmits) :
    ∃ o : List Byte, o.length = count ∧ t.frame = encodeFrame s.build.cksAlg o ∧
      t.lastCks = checksum s.build.cksAlg (payloadBytes (denseItems 0 o)) ∧
      ∀ m, m < count → ∃ v, o[m]? = some v ∧ HeldWhenBuilt s k m v := by
  obtain ⟨hframe, hchecksum⟩ := frame_eq_encodeFrame htx h.regs h.encoding.len
  rw [h.aside.build] at hframe hchecksum
  refine ⟨t.values count, length_values t _, hframe, hchecksum, fun m hm => ?_⟩
  have hnot : t.phase ≠ .eBuild := fun hbuild => by simp [State.Transmits, hbuild] at htx
  obtain ⟨v, hv, hheld⟩ := h.encoding.values m hm fun hbuild => absurd hbuild hnot
  exact ⟨v, getElem?_values hm hv, hheld⟩

/-- The response to an accepted ENCODE of at most 40 slots, without reset: OK, with the frame of values the slots held,
and its checksum in `LASTCKS` (R128, R129, R280). -/
theorem encode_response {c : BitVec 16} {k : Nat} {status : Status} (hacc : s.accepts (.encode c)) (hc : c.toNat ≤ 40)
    (hquiet : s.scriptAll Inputs.noReset) (hresp : s.respondsAt k t status) :
    status = .ok ∧ KeepsAside s t ∧ ∃ o : List Byte, o.length = c.toNat ∧
      t.txq = s.txq ++ encodeFrame s.build.cksAlg o ∧
      t.lastCks = checksum s.build.cksAlg (payloadBytes (denseItems 0 o)) ∧
      ∀ m, m < c.toNat → ∃ v, o[m]? = some v ∧ HeldWhenBuilt s k m v := by
  have hsome := hresp.2.2.1
  have hnoReset : ∀ {j u}, run j s = .next u → u.lines.rst = false := fun hrun =>
    scriptAll_lines (scriptAll_run hquiet hrun)
  have hcases := respondsAt_cases (R := EncodeInProgress s c.toNat)
    (fun u hu _ => encodeInProgress_of_accepts hacc hc hu)
    (fun j u v hrun h hv hnone => by
      rcases h.step hrun (hnoReset hrun) hv with ⟨_, h'⟩ | ⟨hok, _⟩
      · exact h'
      · simp [hok] at hnone)
    hresp
  rcases hcases with hfirst | ⟨j, u, rfl, hrun, h, hut⟩
  · simp [(encoding_of_accepts (V := fun _ _ => True) hacc hc hfirst).1] at hsome
  · rcases h.step hrun (hnoReset hrun) hut with ⟨hnone, _⟩ | ⟨hok, haside, htxq, hcks, htx⟩
    · simp [hnone] at hsome
    · obtain ⟨o, hlen, hframe, hchecksum, hheld⟩ := h.frame htx
      refine ⟨Option.some.inj (hsome.symm.trans hok), haside, o, hlen, by rw [htxq, hframe], hcks.trans hchecksum, ?_⟩
      intro m hm
      obtain ⟨v, hv, n, w, hn, hw⟩ := hheld m hm
      exact ⟨v, hv, n, w, Nat.lt_succ_of_lt hn, hw⟩

end Sys2Proof.Machine

namespace Sys2Proof.Proofs

open Sys2Proof.Machine

/-- Settles O55: the values in the frame are those the slots held when `E_BUILD` had come to them. -/
theorem racingWritesNeverBreakAFrame : Obligations.RacingWritesNeverBreakAFrame := by
  intro s t count k status hacc hcount hquiet hresp
  obtain ⟨hok, _, o, hlen, htxq, _, hheld⟩ := encode_response hacc hcount hquiet hresp
  refine ⟨hok, o, hlen, htxq, fun m hm => ?_⟩
  obtain ⟨v, hv, j, u, hj, hrun, hp, hi, hread⟩ := hheld m hm
  exact ⟨j, u, hj, hrun, hp, hi, hread.trans hv.symm⟩

end Sys2Proof.Proofs

end

/-! SUPPORT. ENCODE without racing writes, its progress under an attentive environment, and its stall under a stream that
never takes a byte (40_encode.md sections 3 and 4, R34, R129, R130, R284). -/

section

namespace Sys2Proof.Machine

variable {s t u : State} {ready : Bool} {c : BitVec 16} {k : Nat} {status : Status}

/-! ### No racing writes -/

/-- A cycle without OUTW leaves `OUT`. -/
theorem step_keeps_outStore (hr : s.lines.rst = false) (hleaves : s.lines.leavesOut) (hs : step s = .next t) :
    t.outStore = s.outStore := by
  rcases step_outStore hr hs with hsame | ⟨hen, a, v, hd, _⟩
  · exact hsame
  · have hwrites := hleaves hen
    rw [hd] at hwrites
    cases hwrites

theorem run_keeps_outStore (hquiet : s.scriptAll Inputs.noReset) (hleaves : s.scriptAll Inputs.leavesOut)
    (hrun : run k s = .next t) : t.outStore = s.outStore := by
  have hkeeps := run_keeps
    (P := fun u => u.scriptAll Inputs.noReset ∧ u.scriptAll Inputs.leavesOut ∧ u.outStore = s.outStore)
    (fun u v ⟨hq, hl, hout⟩ hv => ⟨scriptAll_step hq hv, scriptAll_step hl hv,
      (step_keeps_outStore (scriptAll_lines hq) (scriptAll_lines hl) hv).trans hout⟩)
    ⟨hquiet, hleaves, rfl⟩ hrun
  exact hkeeps.2.2

/-- Without racing writes the frame's values are the slots of `OUT` (R129). -/
theorem encode_response_of_leavesOut (hacc : s.accepts (.encode c)) (hc : c.toNat ≤ 40)
    (hquiet : s.scriptAll Inputs.noReset) (hleaves : s.scriptAll Inputs.leavesOut) (hresp : s.respondsAt k t status) :
    status = .ok ∧ KeepsAside s t ∧ t.outStore = s.outStore ∧
      t.txq = s.txq ++ encodeFrame s.build.cksAlg (s.outStore.toList.take c.toNat) ∧
      t.lastCks = checksum s.build.cksAlg (payloadBytes (denseItems 0 (s.outStore.toList.take c.toNat))) := by
  obtain ⟨hok, haside, o, hlen, htxq, hcks, hheld⟩ := encode_response hacc hc hquiet hresp
  have hvalues : o = s.outStore.toList.take c.toNat := by
    apply List.ext_getElem?
    intro m
    by_cases hm : m < c.toNat
    · obtain ⟨v, hv, j, u, _, hrun, _, _, hread⟩ := hheld m hm
      rw [State.readOut, run_keeps_outStore hquiet hleaves hrun] at hread
      simp [hv, hm, hread]
    · rw [List.getElem?_eq_none (by omega), List.getElem?_eq_none (by simp; omega)]
  subst hvalues
  exact ⟨hok, haside, run_keeps_outStore hquiet hleaves hresp.2.1, htxq, hcks⟩

/-! ### Progress -/

/-- How many moves ENCODE still has to make, when the stream takes every byte. -/
def State.encodeLeft (s : State) : Nat :=
  if s.phase = .eBuild then s.itemCount - s.index + s.len.toNat + 5 else s.len.toNat + 4 - s.sentCount

theorem encodeLeft_congr (hphase : t.phase = s.phase) (hlen : t.len = s.len) (hcnt : t.cnt = s.cnt) :
    t.encodeLeft = s.encodeLeft := by
  rw [State.encodeLeft, State.encodeLeft, State.sentCount, State.sentCount, hphase, hlen, itemCount_congr hlen,
    index_congr hcnt]

theorem encodeLeft_of_transmits (hp : s.Transmits) : s.encodeLeft = s.len.toNat + 4 - s.sentCount := by
  rw [State.encodeLeft, if_neg]
  rcases hp with hp | hp | hp | hp | hp <;> simp [hp]

theorem sentCount_le (hp : s.Transmits) (hregs : s.RegsOk) : s.sentCount ≤ s.len.toNat + 3 := by
  obtain ⟨_, _, _, hpay⟩ := (regsOk_transmits_iff hp).mp hregs
  rcases hp with hp | hp | hp | hp | hp <;> simp only [State.sentCount, hp]
  case inr.inr.inl =>
    have hi := hpay hp
    omega
  all_goals omega

/-- A move under a ready stream responds, or leaves fewer moves to make. -/
theorem encodeLeft_of_move (hregs : s.RegsOk) (hm : EncodeMove true s t) :
    t.resp = some .ok ∨ t.resp = s.resp ∧ (t.phase = .eBuild ∨ t.Transmits) ∧ t.encodeLeft < s.encodeLeft := by
  cases hm with
  | pair v hp hi hv =>
    obtain ⟨hlegal, _⟩ := (regsOk_eBuild_iff hp).mp hregs
    obtain ⟨hle, _⟩ := s.itemCount_le hlegal
    have hcount : s.countUp.encodeLeft < s.encodeLeft := by
      have hindex := s.index_countUp (by omega)
      have hitems : s.countUp.itemCount = s.itemCount := itemCount_congr (by simp)
      rw [State.encodeLeft, State.encodeLeft, if_pos hp, if_pos (by simp [hp]), hindex, hitems, State.len_countUp]
      omega
    refine .inr ⟨by simp, .inl (by simp [hp]), ?_⟩
    rw [encodeLeft_congr (s := s.countUp) (by simp) (by simp) (by simp)]
    exact hcount
  | built hp hi =>
    refine .inr ⟨by simp, .inr (.inl rfl), ?_⟩
    rw [State.encodeLeft, State.encodeLeft, if_pos hp, if_neg (by simp)]
    simp [State.sentCount]
  | wait _ _ _ hready => cases hready
  | send b c p hp hb _ htx hcount =>
    have hle := sentCount_le hp hregs
    refine .inr ⟨by simp, .inr htx, ?_⟩
    rw [encodeLeft_of_transmits htx, encodeLeft_of_transmits hp, hcount, State.len_sendTx]
    omega
  | finish => exact .inl (by simp)

/-- A step of an ENCODE in progress under an attentive environment. -/
theorem encodeLeft_of_step (hregs : s.RegsOk) (hp : s.phase = .eBuild ∨ s.Transmits) (hl : s.lines.attentive)
    (hs : step s = .next t) :
    t.resp = some .ok ∨ t.resp = none ∧ (t.phase = .eBuild ∨ t.Transmits) ∧ t.encodeLeft < s.encodeLeft := by
  obtain ⟨hr, hready, hrun⟩ := hl
  obtain ⟨e, r, u, out, e', rfl, hu⟩ := encodeMove_of_step hr hregs hp hs
  rcases hu with ⟨_, hgo⟩ | hm
  · simp [sequencerGoes, hrun] at hgo
  · rw [hready] at hm
    refine (encodeLeft_of_move (regsOk_begun hregs e r) hm).imp (by simpa using ·) fun ⟨hresp, hphase, hlt⟩ => ?_
    rw [encodeLeft_congr (t := s.begun e r) (s := s) (by simp) (by simp) (by simp)] at hlt
    refine ⟨by simpa using hresp, hphase, ?_⟩
    rwa [encodeLeft_congr (t := u.written out e') (s := u) (by simp) (by simp) (by simp)]

/-- An accepted ENCODE of at most 40 slots responds under an attentive environment (R129). -/
theorem encode_responds (hacc : s.accepts (.encode c)) (hc : c.toNat ≤ 40) (hatt : s.scriptAll Inputs.attentive) :
    ∃ k t status, s.respondsAt k t status := by
  have hregs : s.RegsOk := regsOk_of_idle hacc.1
  obtain ⟨u, hu⟩ := step_answers hregs
  obtain ⟨hnone, _, henc⟩ := encoding_of_accepts (V := fun _ _ => True) hacc hc hu
  obtain ⟨k, t, status, hk⟩ := respondsAt_of_progress
    (P := fun u => u.RegsOk ∧ (u.phase = .eBuild ∨ u.Transmits) ∧ u.scriptAll Inputs.attentive) State.encodeLeft
    (fun u ⟨hregs, hp, hatt⟩ => by
      obtain ⟨v, hv⟩ := step_answers hregs
      refine ⟨v, hv, (encodeLeft_of_step hregs hp (scriptAll_lines hatt) hv).imp (by simp [·]) fun ⟨hnone, hp, hlt⟩ => ?_⟩
      exact ⟨hnone, ⟨(inv_iff.mp (step_inv hregs hv)).1, hp, scriptAll_step hatt hv⟩, hlt⟩)
    ⟨(inv_iff.mp (step_inv hregs hu)).1, henc.phase, scriptAll_step hatt hu⟩
  exact ⟨k + 1, t, status, respondsAt_step hu hnone hk⟩

/-! ### Stalls -/

/-- A phase that presents a byte transmits. -/
theorem transmits_of_presentedByte {b : Byte} (h : s.presentedByte = some b) : s.Transmits := by
  unfold State.presentedByte at h
  split at h <;> simp_all [State.Transmits]

/-- A byte that waits is presented again; it is taken when the stream is ready (R34). -/
theorem step_of_stalled (hinv : s.Inv) (hstall : s.txStalled = true) (hr : s.lines.rst = false)
    (hs : step s = .next t) :
    t.tx = s.tx ∧ (s.lines.txReady = false → t.phase = s.phase ∧ t.txq = s.txq ∧ t.txStalled = true) ∧
      (s.lines.txReady = true → ∃ b, s.tx = some b ∧ t.txq = s.txq ++ [b]) := by
  obtain ⟨hregs, hstallOk⟩ := inv_iff.mp hinv
  have htx := hstallOk hstall
  obtain ⟨b, hb⟩ : ∃ b, s.tx = some b := by
    simp only [State.txStalled, Bool.and_eq_true] at hstall
    exact Option.isSome_iff_exists.mp hstall.1
  have hpb : s.presentedByte = some b := htx.symm.trans hb
  have hp := transmits_of_presentedByte hpb
  obtain ⟨e, r, u, out, e', rfl, hu⟩ := encodeMove_of_step hr hregs (.inr hp) hs
  have hsame : ∀ b', (s.begun e r).presentedByte = some b' → b' = b := fun b' h =>
    Option.some.inj (h.symm.trans hpb)
  rw [hb]
  rcases hu with ⟨_, hgo⟩ | hm
  · simp [sequencerGoes, hstall] at hgo
  · cases hm with
    | pair _ hbuild => simp [State.presentedByte, show s.phase = .eBuild from hbuild] at hpb
    | built hbuild => simp [State.presentedByte, show s.phase = .eBuild from hbuild] at hpb
    | wait b' _ hb' hready =>
      obtain rfl := hsame b' hb'
      simp [hready, State.txStalled]
    | send b' _ _ _ hb' hready =>
      obtain rfl := hsame b' hb'
      simp [hready]
    | finish hend hready =>
      obtain rfl := hsame endByte (by simp [State.presentedByte, show s.phase = .eEnd from hend])
      simp [hready]

/-- ENCODE that has transmitted nothing: it builds, or its start sentinel waits. -/
def State.BeforeStart (s : State) : Prop := s.phase = .eBuild ∨ s.phase = .eStart

/-- Under a stream that takes no byte ENCODE stays before its start sentinel (R130). -/
theorem beforeStart_of_step (hregs : s.RegsOk) (hp : s.BeforeStart) (hr : s.lines.rst = false)
    (hready : s.lines.txReady = false) (hs : step s = .next t) :
    t.BeforeStart ∧ t.resp = none ∧ t.txq = s.txq := by
  obtain ⟨e, r, u, out, e', rfl, hu⟩ := encodeMove_of_step hr hregs (hp.imp_right .inl) hs
  rcases hu with ⟨rfl, _⟩ | hm
  · exact ⟨hp, by simp, by simp⟩
  · cases hm with
    | pair _ hbuild => exact ⟨.inl (by simpa using hbuild), by simp, by simp⟩
    | built => exact ⟨.inr rfl, by simp, by simp⟩
    | wait => exact ⟨hp, by simp, by simp⟩
    | send _ _ _ _ _ htaken => rw [hready] at htaken; cases htaken
    | finish _ htaken => rw [hready] at htaken; cases htaken

/-- An accepted ENCODE under a stream that takes no byte, after any number of steps (R130, R284). -/
theorem beforeStart_of_run (hacc : s.accepts (.encode c)) (hc : c.toNat ≤ 40) (hquiet : s.scriptAll Inputs.noReset)
    (hnever : s.scriptAll (fun i => i.txReady = false)) (k : Nat) :
    ∃ t, run (k + 1) s = .next t ∧ t.RegsOk ∧ t.BeforeStart ∧ t.resp = none ∧ t.txq = s.txq := by
  induction k with
  | zero =>
    obtain ⟨t, ht⟩ := step_answers (regsOk_of_idle hacc.1)
    obtain ⟨hnone, hp, henc⟩ := encoding_of_accepts (V := fun _ _ => True) hacc hc ht
    exact ⟨t, run_succ_of_run rfl ht, (inv_iff.mp (step_inv (regsOk_of_idle hacc.1) ht)).1, .inl hp, hnone,
      henc.txq_of_eBuild hp⟩
  | succ k ih =>
    obtain ⟨t, hrun, hregs, hp, hnone, htxq⟩ := ih
    obtain ⟨v, hv⟩ := step_answers hregs
    obtain ⟨hp', hnone', htxq'⟩ := beforeStart_of_step hregs hp (scriptAll_lines (scriptAll_run hquiet hrun))
      (scriptAll_lines (scriptAll_run hnever hrun)) hv
    exact ⟨v, run_succ_of_run hrun hv, (inv_iff.mp (step_inv hregs hv)).1, hp', hnone', htxq'.trans htxq⟩

end Sys2Proof.Machine

namespace Sys2Proof.Proofs

open Sys2Proof.Machine

/-- Settles O54: without racing writes the values in the frame are the slots of `OUT`. -/
theorem encodeFrameUnderAnyEnvironment : Obligations.EncodeFrameUnderAnyEnvironment := by
  intro s t count k status hacc hcount hquiet hleaves hresp
  obtain ⟨hok, _, _, htxq, _⟩ := encode_response_of_leavesOut hacc hcount hquiet hleaves hresp
  exact ⟨hok, htxq⟩

/-- Settles O53: each move leaves fewer to make, so the response comes, and it is O54's. -/
theorem encodeTransmitsItsFrame : Obligations.EncodeTransmitsItsFrame := by
  intro s count hacc hcount hatt hleaves
  have hquiet : s.scriptAll Inputs.noReset := ⟨fun i hi => (hatt.1 i hi).1, hatt.2.1⟩
  obtain ⟨k, t, status, hresp⟩ := encode_responds hacc hcount hatt
  obtain ⟨rfl, haside, hout, htxq, hcks⟩ := encode_response_of_leavesOut hacc hcount hquiet hleaves hresp
  exact ⟨k, t, hresp, htxq, hcks, sameOut_iff.mpr hout, sameIn_iff.mpr haside.inStore,
    haside.timeout, haside.rxq⟩

/-- Settles O50: a waiting byte is presented again, and ENCODE cannot pass its start sentinel. -/
theorem stalledByteStaysPresented : Obligations.StalledByteStaysPresented := by
  refine ⟨fun s t hinv hstall hr hs => step_of_stalled hinv hstall hr hs, ?_⟩
  intro s count hacc hcount hquiet hnever k hk
  obtain ⟨n, rfl⟩ : ∃ n, k = n + 1 := ⟨k - 1, by omega⟩
  obtain ⟨t, hrun, _, hp, hnone, htxq⟩ := beforeStart_of_run hacc hcount hquiet hnever n
  refine ⟨t, hrun, hnone, ?_, ?_, htxq⟩ <;> rcases hp with hp | hp <;> simp [State.busyPort, State.cmdReadyPort, hp]

end Sys2Proof.Proofs

end

/-! SUPPORT. DECODE's moves (41_decode.md), and what they say of every DECODE, whatever arrives and however time passes
(R140, R152, R153, R189). -/

section

namespace Sys2Proof.Machine

variable {s₀ s t u : State} {ready : Bool} {k : Nat} {status : Status}

/-! ### DECODE's moves -/

/-- A phase of DECODE (R26). -/
def State.Decodes (s : State) : Prop :=
  s.phase = .dSync ∨ s.phase = .dLen ∨ s.phase = .dBody ∨ s.phase = .dRead ∨ s.phase = .dCks ∨ s.phase = .dEnd ∨
    s.phase = .dApply

/-- A phase in which DECODE has not begun to read the payload. -/
def State.DecodesEarly (s : State) : Prop := s.phase = .dSync ∨ s.phase = .dLen ∨ s.phase = .dBody

/-- The bytes DECODE waits for are missing: the length byte (R144), or a part of the body (R146). -/
def State.Starved (s : State) : Prop :=
  s.phase = .dLen ∧ s.rxq = [] ∨ s.phase = .dBody ∧ s.bodyArrived = false

/-- What a step of a DECODE in progress does (R142 to R152, R180). -/
inductive DecodeMove (s : State) : State → Prop
  | scan (b : Byte) (q : List Byte) (hp : s.phase = .dSync) (hq : s.rxq = b :: q) (hb : b ≠ startByte)
      (htime : s.timedOut = false) : DecodeMove s s.dropHead
  | sync (q : List Byte) (hp : s.phase = .dSync) (hq : s.rxq = startByte :: q) :
      DecodeMove s (s.dropHead.armTimer.enter .dLen)
  | latch (b : Byte) (q : List Byte) (hp : s.phase = .dLen) (hq : s.rxq = b :: q) (hb : legalLength b = true) :
      DecodeMove s (((s.dropHead.latchLength b).armTimer).enter .dBody)
  | await (hp : s.Starved) (htime : s.timedOut = false) : DecodeMove s s
  | arrive (hp : s.phase = .dBody) (hb : s.bodyArrived = true) : DecodeMove s (s.countReset.startCks.enter .dRead)
  | read (b : Byte) (q : List Byte) (hp : s.phase = .dRead) (hi : s.index < s.len.toNat) (hk : s.index < 80)
      (hq : s.rxq = b :: q) : DecodeMove s ((s.dropHead.writeBuf s.index b).updateCks b).countUp
  | readAll (hp : s.phase = .dRead) (hi : s.len.toNat ≤ s.index) : DecodeMove s (s.finishCks.enter .dCks)
  | matchCks (q : List Byte) (hp : s.phase = .dCks) (hq : s.rxq = s.lastCks :: q) : DecodeMove s (s.dropHead.enter .dEnd)
  | matchEnd (q : List Byte) (hp : s.phase = .dEnd) (hq : s.rxq = endByte :: q) :
      DecodeMove s (s.dropHead.countReset.enter .dApply)
  | apply (id v : Byte) (hp : s.phase = .dApply) (hi : s.index < s.itemCount) (hid : s.pbuf[2 * s.index]? = some id)
      (hv : s.pbuf[2 * s.index + 1]? = some v) :
      DecodeMove s (if idInRange id then s.writeIn id.toNat v else s).countUp
  | noSentinel (hp : s.phase = .dSync) (hq : s.rxq = []) : DecodeMove s (s.raise .serialBuffError)
  | badLength (b : Byte) (q : List Byte) (hp : s.phase = .dLen) (hq : s.rxq = b :: q) (hb : legalLength b = false) :
      DecodeMove s ((s.dropHead.latchLength b).raise .payloadError)
  | scanTimeout (b : Byte) (q : List Byte) (hp : s.phase = .dSync) (hq : s.rxq = b :: q) (hb : b ≠ startByte)
      (htime : s.timedOut = true) : DecodeMove s (s.dropHead.raise .timeoutError)
  | timeout (hp : s.Starved) (htime : s.timedOut = true) : DecodeMove s (s.raise .timeoutError)
  | badCks (b : Byte) (q : List Byte) (hp : s.phase = .dCks) (hq : s.rxq = b :: q) (hb : b ≠ s.lastCks) :
      DecodeMove s (s.dropHead.raise .checksumError)
  | badEnd (b : Byte) (q : List Byte) (hp : s.phase = .dEnd) (hq : s.rxq = b :: q) (hb : b ≠ endByte) :
      DecodeMove s (s.dropHead.raise .endByteError)
  | done (hp : s.phase = .dApply) (hi : s.itemCount ≤ s.index) : DecodeMove s (s.raise .ok)

/-- Every step of a DECODE in progress is one of them. -/
theorem decodeMove_of_phaseStep (hp : s.Decodes) (hs : phaseStep ready s = .next t) : DecodeMove s t := by
  rcases hp with hp | hp | hp | hp | hp | hp | hp <;> simp only [phaseStep, hp] at hs
  · rcases stepSync_eq_next.mp hs with ⟨hq, rfl⟩ | ⟨b, q, hq, rfl⟩
    · exact .noSentinel hp hq
    · by_cases hb : b = startByte
      · rw [if_pos hb]
        exact .sync q hp (hb ▸ hq)
      · rw [if_neg hb]
        split
        case isTrue htime => exact .scanTimeout b q hp hq hb htime
        case isFalse htime => exact .scan b q hp hq hb (by simpa using htime)
  · rcases stepLength_eq_next.mp hs with ⟨b, q, hq, rfl⟩ | ⟨hq, rfl⟩
    · split
      case isTrue hb => exact .latch b q hp hq hb
      case isFalse hb => exact .badLength b q hp hq (by simpa using hb)
    · split
      case isTrue htime => exact .timeout (.inl ⟨hp, hq⟩) htime
      case isFalse htime => exact .await (.inl ⟨hp, hq⟩) (by simpa using htime)
  · rw [stepBody_eq_next.mp hs]
    split
    case isTrue hb => exact .arrive hp hb
    case isFalse hb =>
      have hstarved : s.Starved := .inr ⟨hp, by simpa using hb⟩
      split
      case isTrue htime => exact .timeout hstarved htime
      case isFalse htime => exact .await hstarved (by simpa using htime)
  · rcases stepRead_eq_next.mp hs with ⟨b, q, hi, hk, hq, rfl⟩ | ⟨hi, rfl⟩
    · exact .read b q hp hi hk hq
    · exact .readAll hp hi
  · obtain ⟨b, q, hq, rfl⟩ := stepCompareChecksum_eq_next.mp hs
    split
    case isTrue hb => exact .matchCks q hp (hb ▸ hq)
    case isFalse hb => exact .badCks b q hp hq hb
  · obtain ⟨b, q, hq, rfl⟩ := stepCompareEnd_eq_next.mp hs
    split
    case isTrue hb => exact .matchEnd q hp (hb ▸ hq)
    case isFalse hb => exact .badEnd b q hp hq hb
  · rcases stepApply_eq_next.mp hs with ⟨id, v, hi, hid, hv, rfl⟩ | ⟨hi, rfl⟩
    · exact .apply id v hp hi hid hv
    · exact .done hp hi

theorem not_idle_of_decodes (hp : s.Decodes) : s.phase ≠ .idle := by
  rcases hp with hp | hp | hp | hp | hp | hp | hp <;> simp [hp]

/-- A step of a DECODE in progress, without reset, is one of its moves or none. -/
theorem decodeMove_of_step (hr : s.lines.rst = false) (hp : s.Decodes) (hs : step s = .next t) :
    ∃ e r u out e', t = u.written out e' ∧
      (u = s.begun e r ∧ sequencerGoes s.lines s = false ∨ DecodeMove (s.begun e r) u) := by
  obtain ⟨e, r, u, out, e', hu, rfl⟩ := step_move hr hs
  have hbusy : (s.begun e r).phase ≠ .idle := not_idle_of_decodes hp
  refine ⟨e, r, u, out, e', rfl, ?_⟩
  cases hgo : sequencerGoes s.lines s with
  | false =>
    rw [hgo, sequencer_of_still hbusy, next_eq_next] at hu
    exact .inl ⟨hu, rfl⟩
  | true =>
    rw [hgo, sequencer_of_go hbusy] at hu
    exact .inr (decodeMove_of_phaseStep hp hu)

/-! ### DECODE in progress -/

/-- A DECODE in progress that `s₀` accepted: `IN` is written in `D_APPLY` only, `LASTCKS` not before the payload is
read. -/
structure Decoding (s₀ s : State) : Prop where
  phase : s.Decodes
  txq : s.txq = s₀.txq
  timeout : s.timeout = s₀.timeout
  lastCks : s.DecodesEarly → s.lastCks = s₀.lastCks
  inStore : s.phase ≠ .dApply → s.inStore = s₀.inStore

/-- A DECODE that `s₀` accepted has responded with `status` (R140, R152, R153). -/
structure Decoded (s₀ : State) (status : Status) (s : State) : Prop where
  status_ne : status ≠ .encodeLengthError
  txq : s.txq = s₀.txq
  timeout : s.timeout = s₀.timeout
  lastCks : status = .noData ∨ status = .serialBuffError ∨ status = .payloadError ∨ status = .timeoutError →
    s.lastCks = s₀.lastCks
  inStore : status ≠ .ok → s.inStore = s₀.inStore

theorem Decoding.congr (h : Decoding s₀ s) (hphase : t.phase = s.phase) (htxq : t.txq = s.txq)
    (htimeout : t.timeout = s.timeout) (hcks : t.lastCks = s.lastCks) (hin : t.inStore = s.inStore) : Decoding s₀ t := by
  constructor
  · rw [State.Decodes, hphase]; exact h.phase
  · rw [htxq, h.txq]
  · rw [htimeout, h.timeout]
  · rw [State.DecodesEarly, hphase, hcks]; exact h.lastCks
  · rw [hphase, hin]; exact h.inStore

/-- A move into a later phase that writes no register of the application. -/
theorem Decoding.enter (h : Decoding s₀ s) (hp : t.Decodes) (htxq : t.txq = s.txq) (htimeout : t.timeout = s.timeout)
    (hcks : t.DecodesEarly → s.DecodesEarly ∧ t.lastCks = s.lastCks) (hin : t.inStore = s.inStore)
    (happly : s.phase ≠ .dApply) : Decoding s₀ t where
  phase := hp
  txq := htxq.trans h.txq
  timeout := htimeout.trans h.timeout
  lastCks := fun hearly => (hcks hearly).2.trans (h.lastCks (hcks hearly).1)
  inStore := fun _ => hin.trans (h.inStore happly)

/-- A response before the payload is read. -/
theorem Decoding.fail_early (h : Decoding s₀ s) (hearly : s.DecodesEarly) (hstatus : status ≠ .encodeLengthError)
    (htxq : t.txq = s.txq) (htimeout : t.timeout = s.timeout) (hcks : t.lastCks = s.lastCks)
    (hin : t.inStore = s.inStore) : Decoded s₀ status t where
  status_ne := hstatus
  txq := htxq.trans h.txq
  timeout := htimeout.trans h.timeout
  lastCks := fun _ => hcks.trans (h.lastCks hearly)
  inStore := fun _ => hin.trans (h.inStore (by rcases hearly with hp | hp | hp <;> simp [hp]))

theorem early_of_starved (hp : s.Starved) : s.DecodesEarly := by
  rcases hp with ⟨hp, _⟩ | ⟨hp, _⟩
  · exact .inr (.inl hp)
  · exact .inr (.inr hp)

/-- A move goes on with the DECODE, or responds. -/
theorem Decoding.move (h : Decoding s₀ s) (hm : DecodeMove s t) :
    (t.resp = s.resp ∧ Decoding s₀ t) ∨ ∃ status, t.resp = some status ∧ Decoded s₀ status t := by
  cases hm with
  | scan _ _ hp => exact .inl ⟨by simp, h.congr (by simp) (by simp) (by simp) (by simp) (by simp)⟩
  | sync _ hp =>
    exact .inl ⟨by simp, h.enter (.inr (.inl rfl)) (by simp) (by simp) (fun _ => ⟨.inl hp, by simp⟩) (by simp)
      (by simp [hp])⟩
  | latch _ _ hp =>
    exact .inl ⟨by simp, h.enter (.inr (.inr (.inl rfl))) (by simp) (by simp) (fun _ => ⟨.inr (.inl hp), by simp⟩)
      (by simp) (by simp [hp])⟩
  | await => exact .inl ⟨rfl, h⟩
  | arrive hp =>
    exact .inl ⟨by simp, h.enter (.inr (.inr (.inr (.inl rfl)))) (by simp) (by simp)
      (fun hearly => by simp [State.DecodesEarly] at hearly) (by simp) (by simp [hp])⟩
  | read _ _ hp =>
    exact .inl ⟨by simp, h.congr (by simp) (by simp) (by simp) (by simp) (by simp)⟩
  | readAll hp =>
    exact .inl ⟨by simp, h.enter (.inr (.inr (.inr (.inr (.inl rfl))))) (by simp) (by simp)
      (fun hearly => by simp [State.DecodesEarly] at hearly) (by simp) (by simp [hp])⟩
  | matchCks _ hp =>
    exact .inl ⟨by simp, h.enter (.inr (.inr (.inr (.inr (.inr (.inl rfl)))))) (by simp) (by simp)
      (fun hearly => by simp [State.DecodesEarly] at hearly) (by simp) (by simp [hp])⟩
  | matchEnd _ hp =>
    exact .inl ⟨by simp, h.enter (.inr (.inr (.inr (.inr (.inr (.inr rfl)))))) (by simp) (by simp)
      (fun hearly => by simp [State.DecodesEarly] at hearly) (by simp) (by simp [hp])⟩
  | apply id v hp =>
    refine .inl ⟨by split <;> simp, ?_, ?_, ?_, ?_, ?_⟩
    · exact .inr (.inr (.inr (.inr (.inr (.inr (by split <;> simp [hp]))))))
    · split <;> simpa using h.txq
    · split <;> simpa using h.timeout
    · intro hearly
      split at hearly <;> simp [State.DecodesEarly, hp] at hearly
    · split <;> simp [hp]
  | noSentinel hp =>
    exact .inr ⟨.serialBuffError, by simp, h.fail_early (.inl hp) nofun (by simp) (by simp) (by simp) (by simp)⟩
  | badLength _ _ hp =>
    exact .inr ⟨.payloadError, by simp, h.fail_early (.inr (.inl hp)) nofun (by simp) (by simp) (by simp) (by simp)⟩
  | scanTimeout _ _ hp =>
    exact .inr ⟨.timeoutError, by simp, h.fail_early (.inl hp) nofun (by simp) (by simp) (by simp) (by simp)⟩
  | timeout hp =>
    exact .inr ⟨.timeoutError, by simp, h.fail_early (early_of_starved hp) nofun (by simp) (by simp) (by simp) (by simp)⟩
  | badCks _ _ hp =>
    exact .inr ⟨.checksumError, by simp, nofun, by simpa using h.txq, by simpa using h.timeout, by simp,
      fun _ => by simpa using h.inStore (by simp [hp])⟩
  | badEnd _ _ hp =>
    exact .inr ⟨.endByteError, by simp, nofun, by simpa using h.txq, by simpa using h.timeout, by simp,
      fun _ => by simpa using h.inStore (by simp [hp])⟩
  | done => exact .inr ⟨.ok, by simp, nofun, by simpa using h.txq, by simpa using h.timeout, by simp, by simp⟩

theorem Decoding.step (h : Decoding s₀ s) (hr : s.lines.rst = false) (hs : step s = .next t) :
    (t.resp = none ∧ Decoding s₀ t) ∨ ∃ status, t.resp = some status ∧ Decoded s₀ status t := by
  obtain ⟨e, r, u, out, e', rfl, hu⟩ := decodeMove_of_step hr h.phase hs
  have hbegun : Decoding s₀ (s.begun e r) := h.congr (by simp) (by simp) (by simp) (by simp) (by simp)
  rcases hu with ⟨rfl, _⟩ | hm
  · exact .inl ⟨by simp, hbegun.congr (by simp) (by simp) (by simp) (by simp) (by simp)⟩
  · rcases hbegun.move hm with ⟨hresp, hu⟩ | ⟨status, hresp, hne, htxq, htimeout, hcks, hin⟩
    · exact .inl ⟨by simpa using hresp, hu.congr (by simp) (by simp) (by simp) (by simp) (by simp)⟩
    · exact .inr ⟨status, by simpa using hresp, hne, htxq, htimeout, hcks, hin⟩

/-- The accepting step of DECODE (R141): NO_DATA, or the scan begins. -/
theorem step_of_accepts_decode (h : s.accepts .decode) (hs : step s = .next t) :
    ∃ e r out e', s.rxq ++ s.lines.rxBytes = [] ∧ t = ((s.begun e r).raise .noData).written out e' ∨
      s.rxq ++ s.lines.rxBytes ≠ [] ∧ t = ((s.begun e r).armTimer.enter .dSync).written out e' := by
  obtain ⟨e, r, u, out, e', hu, rfl⟩ := exec_of_accepts h hs
  refine ⟨e, r, out, e', ?_⟩
  rcases execDecode_eq_next.mp hu with ⟨hbusy, _⟩ | ⟨_, rfl⟩
  · exact absurd h.1 hbusy
  · rw [rxq_begun]
    split
    case isTrue hq => exact .inl ⟨hq, rfl⟩
    case isFalse hq => exact .inr ⟨hq, rfl⟩

theorem decoding_of_accepts (h : s.accepts .decode) (hs : step s = .next t) :
    (t.resp = none ∧ Decoding s t) ∨ (t.resp = some .noData ∧ Decoded s .noData t) := by
  obtain ⟨e, r, out, e', ⟨_, rfl⟩ | ⟨_, rfl⟩⟩ := step_of_accepts_decode h hs
  · exact .inr ⟨by simp, nofun, by simp, by simp, by simp, by simp⟩
  · exact .inl ⟨by simp, .inl (by simp), by simp, by simp, by simp, by simp⟩

/-- What every response to an accepted DECODE says, without reset. -/
theorem decode_response (hacc : s.accepts .decode) (hquiet : s.scriptAll Inputs.noReset)
    (hresp : s.respondsAt k t status) : Decoded s status t := by
  have hsome := hresp.2.2.1
  have hnoReset : ∀ {j u}, run j s = .next u → u.lines.rst = false := fun hrun =>
    scriptAll_lines (scriptAll_run hquiet hrun)
  have hcases := respondsAt_cases (R := fun _ u => Decoding s u)
    (fun u hu hnone => by
      rcases decoding_of_accepts hacc hu with ⟨_, h⟩ | ⟨hdata, _⟩
      · exact h
      · simp [hnone] at hdata)
    (fun j u v hrun h hv hnone => by
      rcases h.step (hnoReset hrun) hv with ⟨_, h⟩ | ⟨status, hstatus, _⟩
      · exact h
      · simp [hnone] at hstatus)
    hresp
  rcases hcases with hfirst | ⟨j, u, rfl, hrun, h, hut⟩
  · rcases decoding_of_accepts hacc hfirst with ⟨hnone, _⟩ | ⟨hdata, h⟩
    · simp [hnone] at hsome
    · obtain rfl := Option.some.inj (hdata.symm.trans hsome)
      exact h
  · rcases h.step (hnoReset hrun) hut with ⟨hnone, _⟩ | ⟨status', hstatus, h⟩
    · simp [hnone] at hsome
    · obtain rfl := Option.some.inj (hstatus.symm.trans hsome)
      exact h

end Sys2Proof.Machine

namespace Sys2Proof.Proofs

open Sys2Proof.Machine

/-- Settles O57: only `D_APPLY` writes `IN`, and from there the response is OK. -/
theorem failedDecodeLeavesIn : Obligations.FailedDecodeLeavesIn := by
  intro s t k status hacc hquiet hresp hne
  exact sameIn_iff.mpr ((decode_response hacc hquiet hresp).inStore hne)

/-- Settles O58: no move of DECODE transmits or writes `TIMEOUT`, and `LASTCKS` is written after the early phases. -/
theorem decodeOutcomes : Obligations.DecodeOutcomes := by
  intro s t k status hacc hquiet hresp
  obtain ⟨hne, htxq, htimeout, hcks, _⟩ := decode_response hacc hquiet hresp
  exact ⟨hne, htxq, htimeout, hcks⟩

end Sys2Proof.Proofs

end

/-! SUPPORT. DECODE as a function (41_decode.md section 7, R154): what the function of R154 still answers in each phase, and
that every move keeps it, or responds with it, or times out. -/

section

namespace Sys2Proof.Machine

variable {s t u : State} {ready : Bool} {status : Status} {alg : CksAlg} {store store' : Vector Byte numSlots}
  {cks : Option Byte} {q r a : List Byte}

/-! ### The function of R154, cut at the phases -/

/-- The answer once the checksum `c` of the payload `p` is matched: the end sentinel is next (R151). -/
def afterChecksum (c : Byte) (p q : List Byte) (store : Vector Byte numSlots) : Buffered :=
  match q with
  | [] => .waitsForBody []
  | e :: rest =>
    if e = endByte then .responds .ok rest (applyPayload p store) (some c) else .responds .endByteError rest store (some c)

/-- The answer once the length is latched (R146). -/
def afterLength (alg : CksAlg) (len : Nat) (body : List Byte) (store : Vector Byte numSlots) : Buffered :=
  if len + 2 ≤ body.length then decodeBody alg len body store else .waitsForBody body

/-- The answer once the start sentinel is found (R144). -/
def afterStart (alg : CksAlg) (q : List Byte) (store : Vector Byte numSlots) : Buffered :=
  match q with
  | [] => .waitsForLength
  | l :: body => if legalLength l then afterLength alg l.toNat body store else .responds .payloadError body store none

/-- The answer while the start sentinel is looked for (R142). -/
def afterAccept (alg : CksAlg) (q : List Byte) (store : Vector Byte numSlots) : Buffered :=
  match q.dropWhile (· != startByte) with
  | [] => .responds .serialBuffError [] store none
  | _ :: q => afterStart alg q store

theorem decodeBuffered_eq_afterAccept (h : q ≠ []) : decodeBuffered alg q store = afterAccept alg q store := by
  obtain ⟨b, q, rfl⟩ := List.exists_cons_of_ne_nil h
  unfold decodeBuffered afterAccept
  generalize (b :: q).dropWhile (· != startByte) = scanned
  match scanned with
  | [] => rfl
  | [_] => rfl
  | _ :: l :: body => rfl

theorem decodeBody_append (p : List Byte) (c : Byte) (h : q ≠ []) :
    decodeBody alg p.length (p ++ c :: q) store =
      if c = checksum alg p then afterChecksum c p q store
      else .responds .checksumError q store (some (checksum alg p)) := by
  obtain ⟨e, q, rfl⟩ := List.exists_cons_of_ne_nil h
  simp only [decodeBody, List.drop_left, List.take_left, afterChecksum]
  by_cases hc : c = checksum alg p
  · subst hc
    by_cases he : e = endByte <;> simp [he]
  · simp [hc]

/-- What DECODE's function still answers: by the phase, from RXQ and what is read so far. -/
def State.outcome (s : State) : Buffered :=
  match s.phase with
  | .dSync => afterAccept s.build.cksAlg s.rxq s.inStore
  | .dLen => afterStart s.build.cksAlg s.rxq s.inStore
  | .dBody => afterLength s.build.cksAlg s.len.toNat s.rxq s.inStore
  | .dRead => decodeBody s.build.cksAlg s.len.toNat (s.buffered s.index ++ s.rxq) s.inStore
  | .dCks => decodeBody s.build.cksAlg s.len.toNat (s.buffered s.len.toNat ++ s.rxq) s.inStore
  | .dEnd => afterChecksum s.lastCks (s.buffered s.len.toNat) s.rxq s.inStore
  | .dApply =>
    .responds .ok s.rxq (applyPayload ((s.buffered s.len.toNat).drop (2 * s.index)) s.inStore) (some s.lastCks)
  | _ => .waitsForLength

theorem outcome_congr (hphase : t.phase = s.phase) (hbuild : t.build = s.build) (hrxq : t.rxq = s.rxq)
    (hin : t.inStore = s.inStore) (hlen : t.len = s.len) (hcnt : t.cnt = s.cnt) (hbuf : t.pbuf = s.pbuf)
    (hcks : t.lastCks = s.lastCks) : t.outcome = s.outcome := by
  simp only [State.outcome, hphase, hbuild, hrxq, hin, hlen, index_congr hcnt, State.buffered_congr hbuf, hcks]

/-- Where the awaited bytes are missing, the function waits. -/
theorem outcome_of_starved (h : s.Starved) (hregs : s.RegsOk) :
    s.phase = .dLen ∧ s.rxq = [] ∧ s.outcome = .waitsForLength ∨ s.phase = .dBody ∧ s.outcome = .waitsForBody s.rxq := by
  rcases h with ⟨hp, hq⟩ | ⟨hp, hb⟩
  · exact .inl ⟨hp, hq, by simp [State.outcome, hp, hq, afterStart]⟩
  · have hlen := (regsOk_dBody_iff hp).mp hregs
    have hshort : ¬ s.len.toNat + 2 ≤ s.rxq.length := fun h => by
      rw [(s.bodyArrived_iff hlen).mpr h] at hb
      cases hb
    exact .inr ⟨hp, by simp [State.outcome, hp, afterLength, hshort]⟩

/-! ### Each move keeps the answer -/

theorem outcome_scan {b : Byte} (hp : s.phase = .dSync) (hq : s.rxq = b :: q) (hb : b ≠ startByte) :
    s.dropHead.outcome = s.outcome := by
  have hskip : (b :: q).dropWhile (· != startByte) = q.dropWhile (· != startByte) :=
    List.dropWhile_cons_of_pos (by simpa using hb)
  simp [State.outcome, hp, afterAccept, hq, hskip]

theorem outcome_sync (hp : s.phase = .dSync) (hq : s.rxq = startByte :: q) :
    (s.dropHead.armTimer.enter .dLen).outcome = s.outcome := by
  simp [State.outcome, hp, afterAccept, hq]

theorem outcome_latch {b : Byte} (hp : s.phase = .dLen) (hq : s.rxq = b :: q) (hb : legalLength b = true) :
    (((s.dropHead.latchLength b).armTimer).enter .dBody).outcome = s.outcome := by
  simp [State.outcome, hp, afterStart, hq, hb]

theorem outcome_arrive (hp : s.phase = .dBody) (hregs : s.RegsOk) (hb : s.bodyArrived = true) :
    (s.countReset.startCks.enter .dRead).outcome = s.outcome := by
  have hlong := (s.bodyArrived_iff ((regsOk_dBody_iff hp).mp hregs)).mp hb
  simp [State.outcome, hp, afterLength, hlong, State.index, State.buffered]

theorem outcome_read {b : Byte} (hp : s.phase = .dRead) (hk : s.index < 80) (hq : s.rxq = b :: q) :
    (((s.dropHead.writeBuf s.index b).updateCks b).countUp).outcome = s.outcome := by
  have hindex : (((s.dropHead.writeBuf s.index b).updateCks b).countUp).index = s.index + 1 := by
    rw [← s.index_countUp (by omega)]
    exact index_congr (by simp)
  have hbuf : (((s.dropHead.writeBuf s.index b).updateCks b).countUp).buffered (s.index + 1) =
      s.buffered s.index ++ [b] := by
    rw [State.buffered_congr (s := s.writeBuf s.index b) (by simp), State.buffered_writeBuf s hk]
  simp only [State.outcome, hp, State.phase_countUp, State.phase_updateCks, State.phase_writeBuf, State.phase_dropHead,
    hindex, hbuf]
  simp [hq]

theorem outcome_readAll (hp : s.phase = .dRead) (hregs : s.RegsOk) (hi : s.len.toNat ≤ s.index) :
    (s.finishCks.enter .dCks).outcome = s.outcome := by
  obtain ⟨_, hle, _⟩ := (regsOk_dRead_iff hp).mp hregs
  have hall : s.index = s.len.toNat := by omega
  simp only [State.outcome, hp, hall]
  simp [State.buffered]

/-- The answer at `D_CKS`, by the byte that is next. -/
theorem outcome_dCks {b : Byte} (hp : s.phase = .dCks) (hregs : s.RegsOk) (hq : s.rxq = b :: q) :
    s.outcome = if b = s.lastCks then afterChecksum b (s.buffered s.len.toNat) q s.inStore
      else .responds .checksumError q s.inStore (some s.lastCks) := by
  obtain ⟨hlegal, hlong, hcks⟩ := (regsOk_dCks_iff hp).mp hregs
  have hne : q ≠ [] := by rintro rfl; simp [hq] at hlong
  have hbuf := s.length_buffered (len_le_of_lenLegal hlegal)
  have happend := decodeBody_append (alg := s.build.cksAlg) (store := s.inStore) (s.buffered s.len.toNat) b hne
  rw [hbuf, ← hcks] at happend
  rw [State.outcome, hp, hq]
  exact happend

theorem outcome_matchCks (hp : s.phase = .dCks) (hregs : s.RegsOk) (hq : s.rxq = s.lastCks :: q) :
    (s.dropHead.enter .dEnd).outcome = s.outcome := by
  rw [outcome_dCks hp hregs hq, if_pos rfl]
  simp [State.outcome, hq, State.buffered]

theorem outcome_matchEnd (hp : s.phase = .dEnd) (hq : s.rxq = endByte :: q) :
    (s.dropHead.countReset.enter .dApply).outcome = s.outcome := by
  simp [State.outcome, hp, afterChecksum, hq, State.index, State.buffered]

theorem drop_buffered_pair {n k : Nat} {id v : Byte} (hk : 2 * k + 2 ≤ n) (hid : s.pbuf[2 * k]? = some id)
    (hv : s.pbuf[2 * k + 1]? = some v) :
    (s.buffered n).drop (2 * k) = id :: v :: (s.buffered n).drop (2 * (k + 1)) := by
  rw [← getElem?_buffered (n := n) (by omega)] at hid hv
  obtain ⟨h1, rfl⟩ := List.getElem?_eq_some_iff.mp hid
  obtain ⟨h2, rfl⟩ := List.getElem?_eq_some_iff.mp hv
  rw [List.drop_eq_getElem_cons h1, List.drop_eq_getElem_cons h2]
  rfl

theorem outcome_apply {id v : Byte} (hp : s.phase = .dApply) (hregs : s.RegsOk) (hi : s.index < s.itemCount)
    (hid : s.pbuf[2 * s.index]? = some id) (hv : s.pbuf[2 * s.index + 1]? = some v) :
    ((if idInRange id then s.writeIn id.toNat v else s).countUp).outcome = s.outcome := by
  obtain ⟨hlegal, _⟩ := (regsOk_dApply_iff hp).mp hregs
  obtain ⟨hle, htwice⟩ := s.itemCount_le hlegal
  have hindex : (s.writeIn id.toNat v).countUp.index = s.index + 1 ∧ s.countUp.index = s.index + 1 := by
    rw [← s.index_countUp (by omega)]
    exact ⟨index_congr (by simp), rfl⟩
  have hdrop := drop_buffered_pair (n := s.len.toNat) (by omega) hid hv
  have hslot : idInRange id = true ↔ id.toNat < numSlots := by simp [idInRange]
  simp only [State.outcome, hp]
  rw [hdrop, applyPayload]
  by_cases hr : id.toNat < numSlots
  · rw [if_pos (hslot.mpr hr), if_pos hr]
    simp [hp, hindex.1, State.buffered]
  · rw [if_neg (mt hslot.mp hr), if_neg hr]
    simp [hp, hindex.2, State.buffered]

theorem outcome_done (hp : s.phase = .dApply) (hregs : s.RegsOk) (hi : s.itemCount ≤ s.index) :
    s.outcome = .responds .ok s.rxq s.inStore (some s.lastCks) := by
  obtain ⟨hlegal, _⟩ := (regsOk_dApply_iff hp).mp hregs
  obtain ⟨_, htwice⟩ := s.itemCount_le hlegal
  have hbuf := s.length_buffered (len_le_of_lenLegal hlegal)
  have hnil : (s.buffered s.len.toNat).drop (2 * s.index) = [] := List.drop_eq_nil_of_le (by omega)
  simp only [State.outcome, hp, hnil, applyPayload]

/-- The three results of a move: the answer stays, or it is given, or the time is up while DECODE waits or scans. -/
theorem outcome_of_move (hregs : s.RegsOk) (hm : DecodeMove s t) :
    (t.resp = s.resp ∧ t.outcome = s.outcome) ∨
    (∃ status cks, t.resp = some status ∧ s.outcome = .responds status t.rxq t.inStore cks ∧
      t.lastCks = cks.getD s.lastCks ∧ (cks = none → s.DecodesEarly)) ∨
    (s.timedOut = true ∧ (s.Starved ∨ s.phase = .dSync ∧ s.rxq.head? ≠ some startByte)) := by
  cases hm with
  | scan b q hp hq hb _ => exact .inl ⟨by simp, outcome_scan hp hq hb⟩
  | sync q hp hq => exact .inl ⟨by simp, outcome_sync hp hq⟩
  | latch b q hp hq hb => exact .inl ⟨by simp, outcome_latch hp hq hb⟩
  | await => exact .inl ⟨rfl, rfl⟩
  | arrive hp hb => exact .inl ⟨by simp, outcome_arrive hp hregs hb⟩
  | read b q hp _ hk hq => exact .inl ⟨by simp, outcome_read hp hk hq⟩
  | readAll hp hi => exact .inl ⟨by simp, outcome_readAll hp hregs hi⟩
  | matchCks q hp hq => exact .inl ⟨by simp, outcome_matchCks hp hregs hq⟩
  | matchEnd q hp hq => exact .inl ⟨by simp, outcome_matchEnd hp hq⟩
  | apply id v hp hi hid hv => exact .inl ⟨by split <;> simp, outcome_apply hp hregs hi hid hv⟩
  | noSentinel hp hq =>
    exact .inr (.inl ⟨.serialBuffError, none, by simp, by simp [State.outcome, hp, hq, afterAccept], by simp,
      fun _ => .inl hp⟩)
  | badLength b q hp hq hb =>
    exact .inr (.inl ⟨.payloadError, none, by simp, by simp [State.outcome, hp, hq, afterStart, hb], by simp,
      fun _ => .inr (.inl hp)⟩)
  | scanTimeout b q hp hq hb htime => exact .inr (.inr ⟨htime, .inr ⟨hp, by simp [hq, hb]⟩⟩)
  | timeout hp htime => exact .inr (.inr ⟨htime, .inl hp⟩)
  | badCks b q hp hq hb =>
    exact .inr (.inl ⟨.checksumError, some s.lastCks, by simp, by simp [outcome_dCks hp hregs hq, hb, hq], by simp,
      nofun⟩)
  | badEnd b q hp hq hb =>
    exact .inr (.inl ⟨.endByteError, some s.lastCks, by simp, by simp [State.outcome, hp, hq, afterChecksum, hb], by simp,
      nofun⟩)
  | done hp hi => exact .inr (.inl ⟨.ok, some s.lastCks, by simp, by simp [outcome_done hp hregs hi], by simp, nofun⟩)

/-! ### Progress -/

/-- A bound on the moves DECODE still has to make, waits aside. -/
def State.decodeLeft (s : State) : Nat :=
  match s.phase with
  | .dSync => 127 + (s.rxq.takeWhile (· != startByte)).length
  | .dLen => 126
  | .dBody => 125
  | .dRead => s.len.toNat - s.index + 44
  | .dCks => 43
  | .dEnd => 42
  | .dApply => s.itemCount - s.index
  | _ => 0

theorem decodeLeft_congr (hphase : t.phase = s.phase)
    (hscan : s.phase = .dSync → t.rxq.takeWhile (· != startByte) = s.rxq.takeWhile (· != startByte))
    (hlen : t.len = s.len) (hcnt : t.cnt = s.cnt) : t.decodeLeft = s.decodeLeft := by
  simp only [State.decodeLeft, hphase, hlen, index_congr hcnt, itemCount_congr hlen]
  split
  · rw [hscan ‹_›]
  all_goals rfl

/-- A move responds, or waits, or leaves fewer moves to make. -/
theorem decodeLeft_of_move (hregs : s.RegsOk) (hm : DecodeMove s t) :
    t.resp ≠ none ∨ s.Starved ∨ t.decodeLeft < s.decodeLeft := by
  cases hm with
  | scan b q hp hq hb => exact .inr (.inr (by simp [State.decodeLeft, hp, hq, hb]))
  | sync q hp hq => exact .inr (.inr (by simp [State.decodeLeft, hp]; omega))
  | latch b q hp => exact .inr (.inr (by simp [State.decodeLeft, hp]))
  | await hp => exact .inr (.inl hp)
  | arrive hp =>
    have hle := len_le_of_lenLegal ((regsOk_dBody_iff hp).mp hregs)
    exact .inr (.inr (by simp [State.decodeLeft, hp, State.index]; omega))
  | read b q hp hi hk hq =>
    have hindex : (((s.dropHead.writeBuf s.index b).updateCks b).countUp).index = s.index + 1 := by
      rw [← s.index_countUp (by omega)]
      exact index_congr (by simp)
    exact .inr (.inr (by simp [State.decodeLeft, hp, hindex]; omega))
  | readAll hp => exact .inr (.inr (by simp [State.decodeLeft, hp]))
  | matchCks q hp => exact .inr (.inr (by simp [State.decodeLeft, hp]))
  | matchEnd q hp =>
    obtain ⟨hlegal, _⟩ := (regsOk_dEnd_iff hp).mp hregs
    have hle := (s.itemCount_le hlegal).1
    have hsame : (s.dropHead.countReset.enter .dApply).itemCount = s.itemCount := itemCount_congr (by simp)
    exact .inr (.inr (by simp [State.decodeLeft, hp, hsame, State.index]; omega))
  | apply id v hp hi =>
    obtain ⟨hlegal, _⟩ := (regsOk_dApply_iff hp).mp hregs
    have hle := (s.itemCount_le hlegal).1
    have hcount : s.countUp.decodeLeft < s.decodeLeft := by
      have hindex := s.index_countUp (by omega)
      have hitems : s.countUp.itemCount = s.itemCount := itemCount_congr (by simp)
      simp [State.decodeLeft, hp, hindex, hitems]
      omega
    have hsame : ((if idInRange id then s.writeIn id.toNat v else s).countUp).decodeLeft = s.countUp.decodeLeft :=
      decodeLeft_congr (by split <;> simp) (fun _ => by split <;> simp) (by split <;> simp) (by split <;> simp)
    exact .inr (.inr (hsame ▸ hcount))
  | _ => exact .inl (by simp)

end Sys2Proof.Machine

end

/-! SUPPORT. DECODE that waits: how long it does (R155), and that without time and arrivals DECODE is the function of R154
(41_decode.md sections 7 and 8). -/

section

namespace Sys2Proof.Machine

variable {s₀ s t u : State} {ready : Bool} {k : Nat} {status : Status}

/-! ### A step of a wait -/

theorem phaseStep_of_starved (h : s.Starved) :
    phaseStep ready s = .next (if s.timedOut then s.raise .timeoutError else s) := by
  rcases h with ⟨hp, hq⟩ | ⟨hp, hb⟩
  · rw [phaseStep, hp]
    exact stepLength_eq_next.mpr (.inr ⟨hq, rfl⟩)
  · rw [phaseStep, hp]
    exact stepBody_eq_next.mpr (by simp [hb])

theorem not_idle_of_starved (h : s.Starved) : s.phase ≠ .idle := by
  rcases h with ⟨hp, _⟩ | ⟨hp, _⟩ <;> simp [hp]

theorem regsOk_of_starved (h : s.Starved) (hlen : s.phase = .dBody → s.lenLegal) : s.RegsOk := by
  rcases h with ⟨hp, _⟩ | ⟨hp, _⟩
  · exact regsOk_of_waiting (.inr hp)
  · exact (regsOk_dBody_iff hp).mpr (hlen hp)

theorem starved_congr (hphase : t.phase = s.phase) (hrxq : t.rxq = s.rxq) (hlen : t.len = s.len) :
    t.Starved ↔ s.Starved := by
  rw [State.Starved, State.Starved, State.bodyArrived, State.bodyArrived, State.rxAvail, State.rxAvail, hphase, hrxq, hlen]

/-- A wait goes on, or ends with TIMEOUT_ERROR, when nothing arrives and the sequencer moves. -/
theorem step_of_starved (h : s.Starved) (hr : s.lines.rst = false) (hrx : s.lines.rxBytes = [])
    (hrun : s.lines.seqRun = true) (hs : step s = .next t) :
    ∃ e r out e',
      t = (if (s.begun e r).timedOut then (s.begun e r).raise .timeoutError else s.begun e r).written out e' := by
  obtain ⟨e, r, u, out, e', hu, rfl⟩ := step_move hr hs
  have hbegun : (s.begun e r).Starved := (starved_congr (by simp) (by simp [hrx]) (by simp)).mpr h
  have hgo : sequencerGoes s.lines s = true := by simp [sequencerGoes, hrun]
  rw [hgo, sequencer_of_go (not_idle_of_starved hbegun), phaseStep_of_starved hbegun, next_eq_next] at hu
  exact ⟨e, r, out, e', by rw [hu]⟩

/-! ### The end of a wait -/

/-- A tick later, one more tick has elapsed, as long as the time base has not come round (R155). -/
theorem toNat_elapsed_tick {now t0 : Tick} (h : (now - t0).toNat < 0xFFFF) : (now + 1 - t0).toNat = (now - t0).toNat + 1 := by
  have hcomm : now + 1 - t0 = now - t0 + 1 := by bv_omega
  have hone : (1 : Tick).toNat = 1 := rfl
  rw [hcomm, BitVec.toNat_add_of_lt (by omega), hone]

/-- With one tick a step and nothing arriving, a wait of which `n` ticks are left ends in the step after them. -/
theorem respondsAt_of_starved (n : Nat) (h : s.Starved) (hregs : s.RegsOk) (hmax : s.timeout.toNat < 0xFFFF)
    (hleft : (s.now - s.t0).toNat + n = s.timeout.toNat)
    (hlines : s.scriptAll (fun i => i.rst = false ∧ i.rxBytes = [] ∧ i.tick = true ∧ i.seqRun = true)) :
    ∃ t, s.respondsAt (n + 1) t .timeoutError ∧ t.rxq = s.rxq ∧ t.phase = .idle ∧ t.inStore = s.inStore ∧
      t.timeout = s.timeout ∧ t.lastCks = s.lastCks := by
  induction n generalizing s with
  | zero =>
    obtain ⟨hr, hrx, htick, hrun⟩ := scriptAll_lines hlines
    obtain ⟨t, ht⟩ := step_answers hregs
    obtain ⟨e, r, out, e', rfl⟩ := step_of_starved h hr hrx hrun ht
    have hout : (s.begun e r).timedOut = true := by
      rw [State.timedOut_iff, timeout_begun, now_begun, t0_begun, if_pos htick, toNat_elapsed_tick (by omega)]
      omega
    rw [if_pos hout] at ht
    exact ⟨_, respondsAt_one ht (by simp), by simp [hrx], by simp, by simp, by simp, by simp⟩
  | succ n ih =>
    obtain ⟨hr, hrx, htick, hrun⟩ := scriptAll_lines hlines
    obtain ⟨t, ht⟩ := step_answers hregs
    obtain ⟨e, r, out, e', rfl⟩ := step_of_starved h hr hrx hrun ht
    have helapsed : ((s.begun e r).now - (s.begun e r).t0).toNat = (s.now - s.t0).toNat + 1 := by
      rw [now_begun, t0_begun, if_pos htick, toNat_elapsed_tick (by omega)]
    have hnot : ¬ (s.begun e r).timedOut = true := by
      rw [State.timedOut_iff, helapsed, timeout_begun]
      omega
    rw [if_neg hnot] at ht
    have hstarved : ((s.begun e r).written out e').Starved := (starved_congr (by simp) (by simp [hrx]) (by simp)).mpr h
    have hleft' : ((s.begun e r).now - (s.begun e r).t0).toNat + n = s.timeout.toNat := by omega
    obtain ⟨v, hv, hrxq, hidle, hin, htimeout, hcks⟩ :=
      ih hstarved (inv_iff.mp (step_inv hregs ht)).1 hmax hleft' (scriptAll_step hlines ht)
    exact ⟨v, respondsAt_step ht (by simp) hv, by simpa [hrx] using hrxq, hidle, hin, htimeout, hcks⟩

/-! ### DECODE with no arrival and no tick -/

/-- A DECODE in progress that `s₀` accepted, with the time stopped and `answer` still to give. -/
structure Frozen (s₀ : State) (answer : Buffered) (s : State) : Prop where
  regs : s.RegsOk
  decoding : Decoding s₀ s
  timer : s.t0 = s.now
  outcome : s.outcome = answer
  silent : s.resp = none
  lines : s.scriptAll Inputs.frozen

variable {answer : Buffered}

/-- No move touches the time base, and `T0` is only ever set to `now`. -/
theorem t0_of_move (hm : DecodeMove s t) (h : s.t0 = s.now) : t.t0 = t.now := by
  cases hm with
  | apply => split <;> simpa using h
  | sync | latch => simp
  | _ => simpa using h

/-- With the time stopped no time is up. -/
theorem not_timedOut_of_timer (h : s.t0 = s.now) : s.timedOut = false := by
  rw [← Bool.not_eq_true, s.timedOut_iff, h]
  simp

/-- A step with the time stopped gives the answer, or keeps it: either DECODE waits, or fewer moves are left. -/
theorem Frozen.step (h : Frozen s₀ answer s) (hs : step s = .next t) :
    (∃ status cks, t.resp = some status ∧ answer = .responds status t.rxq t.inStore cks ∧
      t.lastCks = cks.getD s₀.lastCks) ∨
    (Frozen s₀ answer t ∧ (s.Starved ∨ t.decodeLeft < s.decodeLeft)) := by
  obtain ⟨hr, hrx, htick, hrun⟩ := scriptAll_lines h.lines
  obtain ⟨e, r, u, out, e', rfl, ⟨_, hgo⟩ | hm⟩ := decodeMove_of_step hr h.decoding.phase hs
  · simp [sequencerGoes, hrun] at hgo
  have hregs := regsOk_begun h.regs e r
  have htimer : (s.begun e r).t0 = (s.begun e r).now := by simp [htick, h.timer]
  have hanswer : (s.begun e r).outcome = answer := by
    rw [← h.outcome]
    exact outcome_congr (by simp) (by simp) (by simp [hrx]) (by simp) (by simp) (by simp) (by simp) (by simp)
  rcases outcome_of_move hregs hm with ⟨hresp, hsame⟩ | ⟨status, cks, hresp, hgives, hcks, hearly⟩ | ⟨htime, _⟩
  · refine .inr ⟨⟨(inv_iff.mp (step_inv h.regs hs)).1, ?_, by simpa using t0_of_move hm htimer, ?_, by simpa using hresp,
      scriptAll_step h.lines hs⟩, ?_⟩
    · rcases h.decoding.step hr hs with ⟨_, hdec⟩ | ⟨status, hstatus, _⟩
      · exact hdec
      · simp [hresp] at hstatus
    · rw [← hanswer, ← hsame]
      exact outcome_congr (by simp) (by simp) (by simp) (by simp) (by simp) (by simp) (by simp) (by simp)
    · rcases decodeLeft_of_move hregs hm with hne | hstarved | hlt
      · simp [hresp] at hne
      · exact .inl ((starved_congr (by simp) (by simp [hrx]) (by simp)).mp hstarved)
      · rw [decodeLeft_congr (t := s.begun e r) (s := s) (by simp) (by simp [hrx]) (by simp) (by simp)] at hlt
        rw [decodeLeft_congr (t := u.written out e') (s := u) (by simp) (by simp) (by simp) (by simp)]
        exact .inr hlt
  · refine .inl ⟨status, cks, by simpa using hresp, hanswer.symm.trans hgives, ?_⟩
    rw [lastCks_written, hcks, lastCks_begun]
    cases cks with
    | some c => rfl
    | none => exact h.decoding.lastCks (hearly rfl)
  · rw [not_timedOut_of_timer htimer] at htime
    cases htime

/-- A wait with the time stopped never ends. -/
theorem Frozen.run_of_starved (h : Frozen s₀ answer s) (hstarved : s.Starved) (j : Nat) :
    ∃ t, run j s = .next t ∧ Frozen s₀ answer t ∧ t.Starved := by
  induction j with
  | zero => exact ⟨s, rfl, h, hstarved⟩
  | succ j ih =>
    obtain ⟨u, hrun, hu, hus⟩ := ih
    obtain ⟨v, hv⟩ := step_answers hu.regs
    obtain ⟨hr, hrx, htick, hgo⟩ := scriptAll_lines hu.lines
    obtain ⟨e, r, out, e', hv'⟩ := step_of_starved hus hr hrx hgo hv
    have htimer : (u.begun e r).t0 = (u.begun e r).now := by simp [htick, hu.timer]
    rw [if_neg (by simp [not_timedOut_of_timer htimer])] at hv'
    refine ⟨v, run_succ_of_run hrun hv, ?_, ?_⟩
    · rcases hu.step hv with ⟨status, _, hresp, _⟩ | ⟨hkeeps, _⟩
      · simp [hv'] at hresp
      · exact hkeeps
    · rw [hv']
      exact (starved_congr (by simp) (by simp [hrx]) (by simp)).mpr hus

/-- The accepting step of a DECODE that finds bytes, with the time stopped. -/
theorem frozen_of_accepts (hacc : s.accepts .decode) (hlines : s.scriptAll Inputs.frozen) (hq : s.rxq ≠ [])
    (hs : step s = .next t) : Frozen s (decodeBuffered s.build.cksAlg s.rxq s.inStore) t := by
  obtain ⟨hr, hrx, htick, _⟩ := scriptAll_lines hlines
  have hregs := (inv_iff.mp (step_inv (regsOk_of_idle hacc.1) hs)).1
  have hdec := decoding_of_accepts hacc hs
  have hkeep := scriptAll_step hlines hs
  obtain ⟨e, r, out, e', ⟨hnil, _⟩ | ⟨_, rfl⟩⟩ := step_of_accepts_decode hacc hs
  · simp [hq] at hnil
  · refine ⟨hregs, ?_, by simp [htick], ?_, by simp, hkeep⟩
    · rcases hdec with ⟨_, hdec⟩ | ⟨hdata, _⟩
      · exact hdec
      · simp at hdata
    · rw [decodeBuffered_eq_afterAccept hq]
      simp [State.outcome, hrx]

/-- A DECODE that finds bytes answers as R154's function, when the time is stopped. -/
theorem answer_of_respondsAt (hacc : s.accepts .decode) (hlines : s.scriptAll Inputs.frozen) (hq : s.rxq ≠ [])
    (hresp : s.respondsAt k t status) :
    ∃ cks, decodeBuffered s.build.cksAlg s.rxq s.inStore = .responds status t.rxq t.inStore cks ∧
      t.lastCks = cks.getD s.lastCks := by
  have hsome := hresp.2.2.1
  have hcases := respondsAt_cases
    (R := fun _ u => Frozen s (decodeBuffered s.build.cksAlg s.rxq s.inStore) u)
    (fun u hu _ => frozen_of_accepts hacc hlines hq hu)
    (fun j u v _ h hv hnone => by
      rcases h.step hv with ⟨status, _, hstatus, _⟩ | ⟨hkeeps, _⟩
      · simp [hnone] at hstatus
      · exact hkeeps)
    hresp
  rcases hcases with hfirst | ⟨j, u, _, _, h, hut⟩
  · have hnone := (frozen_of_accepts hacc hlines hq hfirst).silent
    simp [hnone] at hsome
  · rcases h.step hut with ⟨status', cks, hstatus, hanswer, hcks⟩ | ⟨hkeeps, _⟩
    · obtain rfl := Option.some.inj (hstatus.symm.trans hsome)
      exact ⟨cks, hanswer, hcks⟩
    · simp [hkeeps.silent] at hsome

/-- It responds, or comes to wait. -/
theorem respondsAt_or_starves (hacc : s.accepts .decode) (hlines : s.scriptAll Inputs.frozen) (hq : s.rxq ≠ []) :
    (∃ k t status, s.respondsAt k t status) ∨ ∃ k w, run k s = .next w ∧
      Frozen s (decodeBuffered s.build.cksAlg s.rxq s.inStore) w ∧ w.Starved := by
  obtain ⟨u, hu⟩ := step_answers (regsOk_of_idle hacc.1)
  have hfrozen := frozen_of_accepts hacc hlines hq hu
  have hprogress : ∀ v, Frozen s (decodeBuffered s.build.cksAlg s.rxq s.inStore) v → v.Starved ∨
      ∃ w, step v = .next w ∧ (w.resp ≠ none ∨ w.resp = none ∧
        Frozen s (decodeBuffered s.build.cksAlg s.rxq s.inStore) w ∧ w.decodeLeft < v.decodeLeft) := by
    intro v hv
    obtain ⟨w, hw⟩ := step_answers hv.regs
    rcases hv.step hw with ⟨status, _, hresp, _⟩ | ⟨hkeeps, hstarved | hlt⟩
    · exact .inr ⟨w, hw, .inl (by simp [hresp])⟩
    · exact .inl hstarved
    · exact .inr ⟨w, hw, .inr ⟨hkeeps.silent, hkeeps, hlt⟩⟩
  rcases respondsAt_or_reaches State.decodeLeft hprogress hfrozen with ⟨k, t, status, hk⟩ | ⟨k, w, hk, hw⟩
  · exact .inl ⟨k + 1, t, status, respondsAt_step hu hfrozen.silent hk⟩
  · exact .inr ⟨k + 1, w, by rw [run_succ, hu]; exact hk, hw⟩

/-- A run after a run. -/
theorem run_add_of_run {j : Nat} (hk : run k s = .next u) (hj : run j u = .next t) : run (k + j) s = .next t := by
  induction j generalizing t with
  | zero => exact hk.trans hj
  | succ j ih =>
    rw [run_succ_last] at hj
    obtain ⟨v, hv, hvt⟩ := andThen_eq_next.mp hj
    exact run_succ_of_run (ih hv) hvt

/-- Once DECODE waits with the time stopped, every later state of the run is the wait. -/
theorem waits_for_ever {w : State} (hk : run k s = .next w) (h : Frozen s answer w) (hstarved : w.Starved) {j : Nat}
    (hj : k ≤ j) : ∃ t, run j s = .next t ∧ Frozen s answer t ∧ t.Starved ∧ SameIn s t ∧ SameControl s t := by
  obtain ⟨t, hrun, ht, hts⟩ := h.run_of_starved hstarved (j - k)
  have hearly := early_of_starved hts
  have hnot : t.phase ≠ .dApply := by rcases hts with ⟨hp, _⟩ | ⟨hp, _⟩ <;> simp [hp]
  have hrun' := run_add_of_run hk hrun
  rw [show k + (j - k) = j by omega] at hrun'
  exact ⟨t, hrun', ht, hts, sameIn_iff.mpr (ht.decoding.inStore hnot),
    ht.decoding.timeout, ht.decoding.lastCks hearly⟩

/-- DECODE of an empty RXQ, to which nothing arrives, answers NO_DATA at once (R141). -/
theorem respondsAt_of_no_data (hacc : s.accepts .decode) (hrx : s.lines.rxBytes = []) (hq : s.rxq = []) :
    ∃ t, s.respondsAt 1 t .noData ∧ t.rxq = [] ∧ t.inStore = s.inStore ∧ t.lastCks = s.lastCks ∧
      t.timeout = s.timeout ∧ t.txq = s.txq := by
  obtain ⟨t, ht⟩ := step_answers (regsOk_of_idle hacc.1)
  obtain ⟨e, r, out, e', ⟨_, rfl⟩ | ⟨hne, _⟩⟩ := step_of_accepts_decode hacc ht
  · exact ⟨_, respondsAt_one ht (by simp), by simp [hq, hrx], by simp, by simp, by simp, by simp⟩
  · simp [hq, hrx] at hne

end Sys2Proof.Machine

namespace Sys2Proof.Proofs

open Sys2Proof.Machine

/-- Settles O59: each tick leaves one less to wait. -/
theorem waitEndsAfterTimeout : Obligations.WaitEndsAfterTimeout := by
  intro s hwait htimer hmax hlines
  have hstarved : s.Starved := by
    refine hwait.imp_right fun ⟨hp, hlegal, hshort⟩ => ⟨hp, ?_⟩
    rw [← Bool.not_eq_true, s.bodyArrived_iff hlegal]
    omega
  have hregs : s.RegsOk := by
    refine regsOk_of_starved hstarved fun hp => ?_
    rcases hwait with ⟨hp', _⟩ | ⟨_, hlegal, _⟩
    · simp [hp] at hp'
    · exact hlegal
  obtain ⟨t, hresp, hrxq, hidle, hin, htimeout, hcks⟩ :=
    respondsAt_of_starved s.timeout.toNat hstarved hregs hmax (by simp [htimer]) hlines
  exact ⟨t, hresp, hrxq, hidle, sameIn_iff.mpr hin, htimeout, hcks⟩

/-- Settles O56: with the time stopped every step keeps what the function still answers, until it is given or DECODE
waits. -/
theorem decodeIsTheBufferedFunction : Obligations.DecodeIsTheBufferedFunction := by
  intro s hacc hlines
  obtain ⟨_, hrx, _, _⟩ := scriptAll_lines hlines
  by_cases hq : s.rxq = []
  · obtain ⟨t, hresp, hrxq, hin, hcks, htimeout, htxq⟩ := respondsAt_of_no_data hacc hrx hq
    rw [hq]
    exact ⟨1, t, hresp, hrxq, hin, hcks, htimeout, htxq⟩
  rcases respondsAt_or_starves hacc hlines hq with ⟨k, t, status, hresp⟩ | ⟨k, w, hk, hw, hstarved⟩
  · obtain ⟨cks, hanswer, hcks⟩ := answer_of_respondsAt hacc hlines hq hresp
    have hdecoded := decode_response hacc ⟨fun i hi => (hlines.1 i hi).1, hlines.2.1⟩ hresp
    rw [hanswer]
    exact ⟨k, t, hresp, rfl, rfl, hcks, hdecoded.timeout, hdecoded.txq⟩
  · rcases outcome_of_starved hstarved hw.regs with ⟨_, _, hanswer⟩ | ⟨_, hanswer⟩ <;> rw [hw.outcome] at hanswer
    · rw [hanswer]
      refine ⟨k, fun j hj => ?_⟩
      obtain ⟨t, hrun, ht, hts, hin, hcontrol⟩ := waits_for_ever hk hw hstarved hj
      rcases outcome_of_starved hts ht.regs with ⟨hp, hrxq, _⟩ | ⟨_, hbody⟩
      · exact ⟨t, hrun, hp, hrxq, ht.silent, hin, hcontrol⟩
      · simp [ht.outcome, hanswer] at hbody
    · rw [hanswer]
      refine ⟨k, fun j hj => ?_⟩
      obtain ⟨t, hrun, ht, hts, hin, hcontrol⟩ := waits_for_ever hk hw hstarved hj
      rcases outcome_of_starved hts ht.regs with ⟨_, _, hlength⟩ | ⟨hp, hbody⟩
      · simp [ht.outcome, hanswer] at hlength
      · have hrxq : w.rxq = t.rxq := by simpa [ht.outcome, hanswer] using hbody
        exact ⟨t, hrun, hp, hrxq.symm, ht.silent, hin, hcontrol⟩

end Sys2Proof.Proofs

end

/-! SUPPORT. The round trip between two peers (42_register_store.md section 4, R188, R156): a DECODE that finds a whole frame
answers OK whatever arrives behind the frame and however time passes. -/

section

namespace Sys2Proof.Machine

variable {s t u b : State} {alg : CksAlg} {store store' : Vector Byte numSlots} {cks : Option Byte}
  {q r a : List Byte} {k : Nat} {status : Status} {c : BitVec 16}

/-! ### Bytes behind the frame -/

theorem afterChecksum_append {c : Byte} {p : List Byte} (h : afterChecksum c p q store = .responds .ok r store' cks) :
    afterChecksum c p (q ++ a) store = .responds .ok (r ++ a) store' cks := by
  cases q with
  | nil => simp [afterChecksum] at h
  | cons e q =>
    simp only [List.cons_append, afterChecksum] at h ⊢
    split at h
    case isTrue he => simp_all
    case isFalse he => simp at h

theorem decodeBody_append_tail {len : Nat} (h : decodeBody alg len q store = .responds .ok r store' cks) :
    decodeBody alg len (q ++ a) store = .responds .ok (r ++ a) store' cks := by
  unfold decodeBody at h ⊢
  have hlen : len ≤ q.length := by
    by_contra hshort
    simp [List.drop_eq_nil_of_le (Nat.le_of_not_le hshort)] at h
  rw [List.drop_append_of_le_length hlen, List.take_append_of_le_length hlen]
  match hd : q.drop len with
  | [] => simp [hd] at h
  | [_] => simp [hd] at h
  | c :: e :: rest =>
    simp only [hd, List.cons_append] at h ⊢
    split at h
    case isTrue => simp at h
    case isFalse hc =>
      rw [if_neg hc]
      split at h
      case isTrue => simp at h
      case isFalse he => simp_all

theorem afterLength_append {len : Nat} (h : afterLength alg len q store = .responds .ok r store' cks) :
    afterLength alg len (q ++ a) store = .responds .ok (r ++ a) store' cks := by
  unfold afterLength at h ⊢
  split at h
  case isTrue hlong =>
    rw [if_pos (by simp; omega)]
    exact decodeBody_append_tail h
  case isFalse => simp at h

theorem afterStart_append (h : afterStart alg q store = .responds .ok r store' cks) :
    afterStart alg (q ++ a) store = .responds .ok (r ++ a) store' cks := by
  cases q with
  | nil => simp [afterStart] at h
  | cons l q =>
    simp only [List.cons_append, afterStart] at h ⊢
    split at h
    case isTrue hl =>
      rw [if_pos hl]
      exact afterLength_append h
    case isFalse => simp at h

theorem afterAccept_append (h : afterAccept alg q store = .responds .ok r store' cks) :
    afterAccept alg (q ++ a) store = .responds .ok (r ++ a) store' cks := by
  unfold afterAccept at h ⊢
  match hd : q.dropWhile (· != startByte) with
  | [] => simp [hd] at h
  | d :: q' =>
    have hmore : (q ++ a).dropWhile (· != startByte) = d :: (q' ++ a) := by
      rw [List.dropWhile_append, hd]
      rfl
    simp only [hd, hmore] at h ⊢
    exact afterStart_append h

/-- Bytes that arrive join what an OK response leaves in RXQ. -/
theorem outcome_begun (h : s.outcome = .responds .ok r store' cks) (e : Bool) (v : Option Byte) :
    (s.begun e v).outcome = .responds .ok (r ++ s.lines.rxBytes) store' cks := by
  have hbuf : ∀ n, (s.begun e v).buffered n = s.buffered n := State.buffered_congr (by simp)
  simp only [State.outcome, phase_begun, build_begun, rxq_begun, inStore_begun, len_begun, index_begun, hbuf,
    lastCks_begun] at h ⊢
  split at h
  · exact afterAccept_append h
  · exact afterStart_append h
  · exact afterLength_append h
  · rw [← List.append_assoc]
    exact decodeBody_append_tail h
  · rw [← List.append_assoc]
    exact decodeBody_append_tail h
  · exact afterChecksum_append h
  · simp_all
  · cases h

/-! ### DECODE of a whole frame -/

/-- A DECODE in progress that has its whole frame in hand, and leaves `r` in RXQ and `store'` in `IN`. -/
structure Receiving (r : List Byte) (store' : Vector Byte numSlots) (s : State) : Prop where
  regs : s.RegsOk
  phase : s.Decodes
  outcome : ∃ cks, s.outcome = .responds .ok r store' cks
  head : s.phase = .dSync → s.rxq.head? = some startByte

/-- Only a byte that is no start sentinel keeps DECODE scanning. -/
theorem phase_of_move (hm : DecodeMove s t) (hhead : s.phase = .dSync → s.rxq.head? = some startByte) :
    t.phase ≠ .dSync := by
  cases hm with
  | scan b q hp hq hb =>
    have hstart := hhead hp
    simp [hq, hb] at hstart
  | await hp => rcases hp with ⟨hp, _⟩ | ⟨hp, _⟩ <;> simp [hp]
  | read _ _ hp => simp [hp]
  | apply _ _ hp => split <;> simp [hp]
  | _ => simp

/-- A move that does not respond stays in DECODE. -/
theorem decodes_of_move (hp : s.Decodes) (hm : DecodeMove s t) (hresp : t.resp = s.resp) (hnone : s.resp = none) :
    t.Decodes := by
  have hdec : Decoding s s := ⟨hp, rfl, rfl, fun _ => rfl, fun _ => rfl⟩
  rcases hdec.move hm with ⟨_, h⟩ | ⟨status, hstatus, _⟩
  · exact h.phase
  · simp [hresp, hnone] at hstatus

/-- A step of it goes on with the arrived bytes behind, or responds OK (R156 (a)). -/
theorem Receiving.step (h : Receiving r store' s) (hr : s.lines.rst = false) (hs : step s = .next t) :
    (t.resp = none ∧ Receiving (r ++ s.lines.rxBytes) store' t ∧
      (s.lines.seqRun = true → t.decodeLeft < s.decodeLeft)) ∨
    (t.resp = some .ok ∧ t.rxq = r ++ s.lines.rxBytes ∧ t.inStore = store') := by
  obtain ⟨cks, hout⟩ := h.outcome
  have hregs' := (inv_iff.mp (step_inv h.regs hs)).1
  obtain ⟨e, v, u, out, e', rfl, hu⟩ := decodeMove_of_step hr h.phase hs
  have hbegun := outcome_begun hout e v
  have hhead : (s.begun e v).phase = .dSync → (s.begun e v).rxq.head? = some startByte := by
    intro hp
    simp [h.head hp]
  have hwritten : (u.written out e').outcome = u.outcome :=
    outcome_congr (by simp) (by simp) (by simp) (by simp) (by simp) (by simp) (by simp) (by simp)
  rcases hu with ⟨rfl, hgo⟩ | hm
  · exact .inl ⟨by simp, ⟨hregs', h.phase, ⟨cks, hwritten.trans hbegun⟩, hhead⟩,
      fun hrun => by simp [sequencerGoes, hrun] at hgo⟩
  have hregs := regsOk_begun h.regs e v
  have hnot : ¬ (s.begun e v).Starved := by
    intro hstarved
    rcases outcome_of_starved hstarved hregs with ⟨_, _, hwaits⟩ | ⟨_, hwaits⟩ <;> simp [hbegun] at hwaits
  rcases outcome_of_move hregs hm with ⟨hresp, hsame⟩ | ⟨status, cks', hresp, hgives, _⟩ | ⟨_, hstarved | ⟨hp, hne⟩⟩
  · have hnone : u.resp = none := hresp
    have hnext : u.phase ≠ .dSync := phase_of_move hm hhead
    have hphase : u.Decodes := decodes_of_move (s := s.begun e v) h.phase hm hresp rfl
    refine .inl ⟨hnone, ⟨hregs', hphase, ⟨cks, hwritten.trans (hsame.trans hbegun)⟩,
      fun hp => absurd hp hnext⟩, fun _ => ?_⟩
    rcases decodeLeft_of_move hregs hm with hsome | hstarved | hlt
    · exact absurd hnone hsome
    · exact absurd hstarved hnot
    · rw [decodeLeft_congr (t := u.written out e') (s := u) (by simp) (by simp) (by simp) (by simp)]
      refine lt_of_lt_of_eq hlt (decodeLeft_congr (by simp) (fun hp => ?_) (by simp) (by simp))
      obtain ⟨q, hq⟩ := List.head?_eq_some_iff.mp (h.head hp)
      simp [hq]
  · rw [hbegun] at hgives
    obtain ⟨rfl, hrxq, hin, _⟩ := Buffered.responds.inj hgives
    exact .inr ⟨hresp, hrxq.symm, hin.symm⟩
  · exact absurd hstarved hnot
  · exact absurd (hhead hp) hne

/-! ### Arrivals along a run -/

theorem run_script (hrun : run k s = .next u) : u.script = s.script.drop k ∧ u.rest = s.rest := by
  induction k generalizing u with
  | zero => cases hrun; simp
  | succ k ih =>
    rw [run_succ_last] at hrun
    obtain ⟨v, hv, hvu⟩ := andThen_eq_next.mp hrun
    obtain ⟨hscript, hrest⟩ := ih hv
    obtain ⟨hscript', hrest', _⟩ := step_script hvu
    exact ⟨by rw [hscript', hscript, List.tail_drop], hrest'.trans hrest⟩

theorem arrivals_succ_last (k : Nat) (script : List Inputs) (rest : Inputs) :
    arrivals (k + 1) script rest = arrivals k script rest ++ ((script.drop k).headD rest).rxBytes := by
  induction k generalizing script with
  | zero => simp [arrivals]
  | succ k ih =>
    rw [arrivals, ih script.tail, arrivals, List.append_assoc, List.drop_tail]

/-- The arrivals of one more step are its lines' bytes. -/
theorem arrivals_succ_of_run (hrun : run k s = .next u) :
    arrivals (k + 1) s.script s.rest = arrivals k s.script s.rest ++ u.lines.rxBytes := by
  obtain ⟨hscript, hrest⟩ := run_script hrun
  rw [arrivals_succ_last, State.lines, hscript, hrest]

/-! ### The round trip -/

/-- What `IN` holds after a DECODE of the dense values `o`. -/
def receivedStore (o : List Byte) (store : Vector Byte numSlots) : Vector Byte numSlots :=
  applyPayload (payloadBytes (denseItems 0 o)) store

/-- A DECODE accepted with an encoded frame at the head of RXQ has the whole frame in hand. -/
theorem receiving_of_accepts {o : List Byte} (hacc : b.accepts .decode) (ho : o.length ≤ 40)
    (hrxq : b.rxq = encodeFrame b.build.cksAlg o) (hs : step b = .next t) :
    t.resp = none ∧ Receiving b.lines.rxBytes (receivedStore o b.inStore) t := by
  have hregs := (inv_iff.mp (step_inv (regsOk_of_idle hacc.1) hs)).1
  have hne : b.rxq ≠ [] := by simp [hrxq, encodeFrame, frameBytes]
  obtain ⟨e, v, out, e', ⟨hnil, _⟩ | ⟨_, rfl⟩⟩ := step_of_accepts_decode hacc hs
  · simp [hne] at hnil
  · have hanswer := decodeBuffered_frameBytes (alg := b.build.cksAlg) (items := denseItems 0 o) (by simpa using ho)
      b.lines.rxBytes b.inStore
    rw [← encodeFrame, ← hrxq, decodeBuffered_eq_afterAccept (by simp [hne])] at hanswer
    have hout : (((b.begun e v).armTimer.enter .dSync).written out e').outcome =
        afterAccept b.build.cksAlg (b.rxq ++ b.lines.rxBytes) b.inStore := rfl
    refine ⟨by simp, hregs, .inl (by simp), ⟨_, hout.trans hanswer⟩, fun _ => ?_⟩
    · simp [hrxq, encodeFrame, frameBytes]

/-- Its response is OK; RXQ holds the arrivals and `IN` the values. -/
theorem received_of_respondsAt {o : List Byte} (hacc : b.accepts .decode) (hquiet : b.scriptAll Inputs.noReset)
    (ho : o.length ≤ 40) (hrxq : b.rxq = encodeFrame b.build.cksAlg o) (hresp : b.respondsAt k t status) :
    status = .ok ∧ t.rxq = arrivals k b.script b.rest ∧ t.inStore = receivedStore o b.inStore := by
  have hsome := hresp.2.2.1
  have hnoReset : ∀ {j u}, run j b = .next u → u.lines.rst = false := fun hrun =>
    scriptAll_lines (scriptAll_run hquiet hrun)
  have hone : arrivals 1 b.script b.rest = b.lines.rxBytes := by simp [arrivals, State.lines]
  have hcases := respondsAt_cases
    (R := fun j u => Receiving (arrivals j b.script b.rest) (receivedStore o b.inStore) u)
    (fun u hu _ => hone ▸ (receiving_of_accepts hacc ho hrxq hu).2)
    (fun j u v hrun h hv hnone => by
      rcases h.step (hnoReset hrun) hv with ⟨_, hkeeps, _⟩ | ⟨hok, _⟩
      · rw [arrivals_succ_of_run hrun]
        exact hkeeps
      · simp [hnone] at hok)
    hresp
  rcases hcases with hfirst | ⟨j, u, rfl, hrun, h, hut⟩
  · simp [(receiving_of_accepts hacc ho hrxq hfirst).1] at hsome
  · rcases h.step (hnoReset hrun) hut with ⟨hnone, _⟩ | ⟨hok, hrxq', hin⟩
    · simp [hnone] at hsome
    · exact ⟨(Option.some.inj (hok.symm.trans hsome)).symm, by rw [arrivals_succ_of_run hrun, hrxq'], hin⟩

/-- With a sequencer that moves in every cycle the response comes. -/
theorem receiving_responds {o : List Byte} (hacc : b.accepts .decode) (hquiet : b.scriptAll Inputs.noReset)
    (hruns : b.scriptAll (fun i => i.seqRun = true)) (ho : o.length ≤ 40)
    (hrxq : b.rxq = encodeFrame b.build.cksAlg o) : ∃ k t status, b.respondsAt k t status := by
  obtain ⟨u, hu⟩ := step_answers (regsOk_of_idle hacc.1)
  obtain ⟨hnone, hreceiving⟩ := receiving_of_accepts hacc ho hrxq hu
  obtain ⟨k, t, status, hk⟩ := respondsAt_of_progress
    (P := fun v => (∃ r store', Receiving r store' v) ∧ v.scriptAll Inputs.noReset ∧ v.scriptAll (fun i => i.seqRun = true))
    State.decodeLeft
    (fun v ⟨⟨r, store', h⟩, hquiet, hruns⟩ => by
      obtain ⟨w, hw⟩ := step_answers h.regs
      refine ⟨w, hw, ?_⟩
      rcases h.step (scriptAll_lines hquiet) hw with ⟨hnone, hkeeps, hlt⟩ | ⟨hok, _⟩
      · exact .inr ⟨hnone, ⟨⟨_, _, hkeeps⟩, scriptAll_step hquiet hw, scriptAll_step hruns hw⟩,
          hlt (scriptAll_lines hruns)⟩
      · exact .inl (by simp [hok]))
    ⟨⟨_, _, hreceiving⟩, scriptAll_step hquiet hu, scriptAll_step hruns hu⟩
  exact ⟨k + 1, t, status, respondsAt_step hu hnone hk⟩

end Sys2Proof.Machine

namespace Sys2Proof.Proofs

open Sys2Proof.Machine

/-- Settles O60: the sender's frame (O54) is a whole frame in the receiver's hand. -/
theorem roundTripBetweenPeers : Obligations.RoundTripBetweenPeers := by
  intro a ta b count k hacc hcount hquiet hleaves hresp hdecode hbquiet halg htxq
  obtain ⟨_, _, _, hsent, _⟩ := encode_response_of_leavesOut hacc hcount hquiet hleaves hresp
  have hrxq : b.rxq = encodeFrame b.build.cksAlg (a.outStore.toList.take count.toNat) := by
    rw [halg]
    exact List.append_cancel_left (htxq.symm.trans hsent)
  have hlen : (a.outStore.toList.take count.toNat).length = count.toNat := by simp; omega
  refine ⟨fun kb tb status hb => ?_, fun hruns => ?_⟩
  · obtain ⟨hok, htail, hin⟩ := received_of_respondsAt hdecode hbquiet (by omega) hrxq hb
    refine ⟨hok, htail, fun m => ?_⟩
    rw [State.readIn, hin, receivedStore, applyPayload_denseItems (by omega), hlen]
    by_cases hm : m < count.toNat
    · rw [if_pos (by omega), if_pos hm]
      simp [State.readOut, hm]
    · rw [if_neg (by omega), if_neg hm, State.readIn]
  · obtain ⟨kb, tb, status, hb⟩ := receiving_responds hdecode hbquiet hruns (by omega) hrxq
    obtain ⟨rfl, _⟩ := received_of_respondsAt hdecode hbquiet (by omega) hrxq hb
    exact ⟨kb, tb, hb⟩

end Sys2Proof.Proofs

end

/-! SUPPORT. What a step runs (assumption log 1, 9, 21): the presented command, store access or frame, or the step of the
phase; and what reset leaves (10_state.md section 7). -/

section

namespace Sys2Proof.Machine

variable {s t : State} {i : Inputs} {c : Instr} {p : PortWord} {b : Build}

/-! ### Pieces of a cycle in which nothing happens -/

@[simp] theorem deliver_nil (s : State) : s.deliver [] = s := by
  simp [State.deliver]

theorem andThen_next_right (r : Result) : andThen r Host.Outcome.next = r := by
  cases r <;> rfl

theorem portReads_of_no_access (h : i.appEn = false) : portReads i s = .next s := by
  simp [portReads, h]

theorem portWrites_of_no_access (h : i.appEn = false) : portWrites i = Host.Outcome.next := by
  funext s
  simp [portWrites, h]

/-- The sequencer rests: no command for an idle block, or no move of a busy one. -/
theorem sequencer_of_rest {go : Bool} (h : s.phase = .idle ∧ i.cmdValid = false ∨ s.phase ≠ .idle ∧ go = false) :
    sequencer go i s = .next s := by
  rcases h with ⟨hp, hv⟩ | ⟨hp, rfl⟩
  · exact sequencer_of_idle hp hv
  · exact sequencer_of_still hp

/-- A step without reset and store access is the sequencer's move. -/
theorem step_of_no_access (hr : s.lines.rst = false) (hen : s.lines.appEn = false) :
    step s = sequencer (sequencerGoes s.lines s) s.lines ((s.beginCycle s.lines).deliver s.lines.rxBytes) := by
  rw [step_eq hr, portReads_of_no_access hen, andThen_next, portWrites_of_no_access hen, andThen_next_right]

/-! ### What a step runs -/

theorem step_of_command (hp : s.phase = .idle) (hr : s.lines.rst = false) (hen : s.lines.appEn = false)
    (hv : s.lines.cmdValid = true) (hd : decode (.command s.lines.commandWord) = .ok c) :
    step s = exec c ((s.beginCycle s.lines).deliver s.lines.rxBytes) := by
  rw [decode_command, Except.ok.injEq] at hd
  rw [step_of_no_access hr hen, sequencer_of_command (by exact hp) hv, hd]

theorem step_of_phase (hr : s.lines.rst = false) (hen : s.lines.appEn = false) (hp : s.phase ≠ .idle)
    (hgo : sequencerGoes s.lines s = true) :
    step s = phaseStep s.lines.txReady ((s.beginCycle s.lines).deliver s.lines.rxBytes) := by
  rw [step_of_no_access hr hen, hgo, sequencer_of_go (by exact hp)]

/-- A read access runs before the resting sequencer, a write access after it. -/
theorem step_of_access (hr : s.lines.rst = false) (hen : s.lines.appEn = true)
    (hrest : s.phase = .idle ∧ s.lines.cmdValid = false ∨ s.phase ≠ .idle ∧ sequencerGoes s.lines s = false)
    (hd : decode (.store s.lines.storeWord) = .ok c) :
    step s = exec c ((s.beginCycle s.lines).deliver s.lines.rxBytes) := by
  rw [decode_store, Except.ok.injEq] at hd
  subst hd
  rw [step_eq hr]
  cases hw : (decodeStore s.lines.storeWord).writesSlot with
  | false =>
    obtain ⟨e, r, hread⟩ := exec_decodeStore_read (s := (s.beginCycle s.lines).deliver s.lines.rxBytes) hw
    simp only [portReads, portWrites, hen, hw, Bool.not_false, Bool.and_self, Bool.and_false, if_true, hread,
      andThen_next, Bool.false_eq_true, if_false]
    rw [sequencer_of_rest (by exact hrest), andThen_next]
  | true =>
    simp only [portReads, portWrites, hen, hw, Bool.not_true, Bool.and_self, Bool.and_false, if_true, andThen_next,
      Bool.false_eq_true, if_false]
    rw [sequencer_of_rest (by exact hrest), andThen_next]

theorem step_of_frame (hr : s.lines.rst = false) (hen : s.lines.appEn = false)
    (hrest : s.phase = .idle ∧ s.lines.cmdValid = false ∨ s.phase ≠ .idle ∧ sequencerGoes s.lines s = false)
    (hd : decode (.wire s.lines.rxBytes) = .ok c) : step s = exec c (s.beginCycle s.lines) := by
  obtain ⟨items, cks, rfl, _, hbytes⟩ := (decode_wire_iff _ _).mp hd
  rw [step_of_no_access hr hen, sequencer_of_rest (by exact hrest), hbytes]
  rfl

/-! ### A placed word -/

theorem lines_present (p : PortWord) (s : State) : (s.present p).lines = presenting p := by
  cases p <;> rfl

theorem commandWord_presenting (w : BitVec 18) : (presenting (.command w)).commandWord = w :=
  commandWord_fields w

theorem storeWord_presenting (w : BitVec 16) : (presenting (.store w)).storeWord = w :=
  storeWord_fields w

/-- With a store word or wire bytes presented the sequencer rests, unless a byte waits. -/
theorem rest_of_present (hstall : s.txStalled = false) (hv : (presenting p).cmdValid = false)
    (hrun : (presenting p).seqRun = false) (hp : (s.present p).phase = s.phase) (htx : (s.present p).txStalled = s.txStalled) :
    (s.present p).phase = .idle ∧ (s.present p).lines.cmdValid = false ∨
      (s.present p).phase ≠ .idle ∧ sequencerGoes (s.present p).lines (s.present p) = false := by
  rw [lines_present, hp, hv, sequencerGoes, htx, hstall, hrun]
  simp [em]

/-- A word placed on its port is what the next step runs. -/
theorem step_present (hd : decode p = .ok c) (hstall : s.txStalled = false) :
    step (s.present p) = exec c ((s.present p).beginCycle (s.present p).lines) := by
  have hlines := lines_present p s
  cases p with
  | command w =>
    rw [step_of_command (c := c) rfl (by rw [hlines]; rfl) (by rw [hlines]; rfl) (by rw [hlines]; rfl)
      (by rw [hlines, commandWord_presenting]; exact hd), hlines]
    exact congrArg (exec c) (deliver_nil _)
  | store w =>
    rw [step_of_access (c := c) (by rw [hlines]; rfl) (by rw [hlines]; rfl)
      (rest_of_present hstall rfl rfl rfl rfl) (by rw [hlines, storeWord_presenting]; exact hd), hlines]
    exact congrArg (exec c) (deliver_nil _)
  | wire bytes =>
    exact step_of_frame (by rw [hlines]; rfl) (by rw [hlines]; rfl) (rest_of_present hstall rfl rfl rfl rfl)
      (by rw [hlines]; exact hd)

/-- A table row's word that decodes stands on a port. -/
theorem decodeTableWord_eq_some {nbits w : Nat} (h : decodeTableWord nbits w = some c) :
    ∃ p, portWordOfTable nbits w = some p ∧ decode p = .ok c := by
  unfold decodeTableWord at h
  split at h
  · cases h
  · rename_i p hp
    split at h
    · rename_i j hj
      cases h
      exact ⟨p, hp, hj⟩
    · cases h

/-! ### Reset -/

theorem timeoutReset_peripheral (h : b.side = .peripheral) : timeoutReset b = 10 := by
  simp [timeoutReset, h, timeoutResetPeripheral]

/-- The host side's reset timeout is the larger one (R9, U12). -/
theorem timeoutReset_host (h : b.side = .host) : 10 < (timeoutReset b).toNat := by
  simp only [timeoutReset, h]
  by_cases hlt : timeoutResetPeripheral < b.timeoutResetHost
  · rw [if_pos hlt]
    exact BitVec.lt_def.mp hlt
  · rw [if_neg hlt]
    decide

end Sys2Proof.Machine

namespace Sys2Proof.Proofs

open Sys2Proof.Machine

/-- Settles O6: without accesses a step is the sequencer's move, here the acceptance. -/
theorem stepRunsPresentedCommand : Obligations.StepRunsPresentedCommand :=
  fun _ _ hp hr hen hv hd => step_of_command hp hr hen hv hd

/-- Settles O7: a resting sequencer leaves the access alone in the cycle. -/
theorem stepRunsPresentedAccess : Obligations.StepRunsPresentedAccess :=
  fun _ _ hr hen hrest hd => step_of_access hr hen hrest hd

/-- Settles O8: FRAME is what delivery of its bytes does. -/
theorem stepRunsArrivingFrame : Obligations.StepRunsArrivingFrame :=
  fun _ _ hr hen hrest hd => step_of_frame hr hen hrest hd

/-- Settles O9: without accesses a step is the sequencer's move, here its phase's. -/
theorem stepRunsPhase : Obligations.StepRunsPhase :=
  fun _ hr hen hp hgo => step_of_phase hr hen hp hgo

/-- Settles O10: the placed word is presented alone, so O6, O7 or O8 says what the step runs. -/
theorem withFetchWordRunsTheWord : Obligations.WithFetchWordRunsTheWord := by
  intro s nbits w i h hstall
  obtain ⟨p, hp, hd⟩ := decodeTableWord_eq_some h
  rw [State.withFetchWord, hp]
  exact step_present hd hstall

/-- Settles O33, by the table and the ports' definitions. -/
theorem statusCodesAsTabulated : Obligations.StatusCodesAsTabulated := by
  refine ⟨rfl, rfl, rfl, rfl, rfl, rfl, rfl, rfl, fun s status h => ?_⟩
  simp [State.respValidPort, State.respStatusPort, h]

/-- Settles O40: a reset step is `resetBlock` after the arrivals. -/
theorem resetLeavesTheSpecifiedValues : Obligations.ResetLeavesTheSpecifiedValues := by
  refine ⟨fun s hr => ⟨_, cycle_reset hr, ?_⟩, ?_⟩
  · exact ⟨rfl, rfl, timeoutReset_peripheral, timeoutReset_host, rfl, rfl, rfl, rfl, rfl, rfl, rfl, rfl, rfl, rfl⟩
  · exact ⟨rfl, rfl, timeoutReset_peripheral, timeoutReset_host, rfl, rfl, rfl, rfl, rfl, rfl⟩

end Sys2Proof.Proofs

end

/-! SUPPORT. Single meanings with their frames: the four commands (44_command_port.md, R121, R141), FRAME (R33, R90), the
transmit phases (40_encode.md section 2), DECODE's phases (41_decode.md) and the named stops (R147, U9). -/

section

namespace Sys2Proof.Machine

variable {s t : State} {ready : Bool} {b : Byte}

/-- The payload bytes of pairs, written as one list (R90). -/
theorem payloadBytes_eq_flatMap (items : List Item) : payloadBytes items = items.flatMap fun p => [p.id, p.value] := by
  induction items with
  | nil => rfl
  | cons item items ih => simp [payloadBytes, ih]

/-! ### Frames -/

/-- What a presented byte leaves unchanged, whether it waits or is taken. -/
def SameButSent (s t : State) : Prop :=
  SameOut s t ∧ SameIn s t ∧ SameControl s t ∧ t.acc = s.acc ∧ t.t0 = s.t0 ∧ t.len = s.len ∧ t.pbuf = s.pbuf ∧
    t.rxq = s.rxq ∧ t.now = s.now ∧ t.rxPop = s.rxPop ∧ SameAccess s t ∧ SameModel s t

theorem sameButSent_offerTx (s : State) (b : Byte) : SameButSent s (s.offerTx b) :=
  by simp [SameButSent]

theorem sameButSent_sendTx (s : State) (b : Byte) (c : BitVec 7) (p : Phase) (r : Option Status) :
    SameButSent s { s.sendTx b with cnt := c, phase := p, resp := r } :=
  by simp [SameButSent]

end Sys2Proof.Machine

namespace Sys2Proof.Proofs

open Sys2Proof.Machine

/-- Settles O15, by the accepting step of SET_TIMEOUT. -/
theorem setTimeoutWritesTimeout : Obligations.SetTimeoutWritesTimeout := by
  intro s d hp
  refine ⟨_, execSetTimeout_eq_next.mpr (.inr ⟨hp, rfl⟩), ?_⟩
  simp

/-- Settles O16, by the accepting step of the reserved code, which is none. -/
theorem reservedCommandHasNoEffect : Obligations.ReservedCommandHasNoEffect := by
  intro s arg hp
  refine ⟨by rw [decodeCommand_commandWord]; rfl, s, execCmdReserved_eq_next.mpr rfl, hp, ?_⟩
  simp

/-- Settles O17, by the two branches of ENCODE's accepting step. -/
theorem encodeAcceptingStep : Obligations.EncodeAcceptingStep := by
  intro s count hp
  refine ⟨_, execEncode_eq_next.mpr (.inr ⟨hp, rfl⟩), ?_⟩
  by_cases hc : count.toNat ≤ 40
  · have hlen := toNat_lengthOfCount hc
    simp [hc, hlen]
  · simp [hc]

/-- Settles O18, by the two branches of DECODE's accepting step. -/
theorem decodeAcceptingStep : Obligations.DecodeAcceptingStep := by
  intro s hp
  refine ⟨_, execDecode_eq_next.mpr (.inr ⟨hp, rfl⟩), ?_⟩
  by_cases hq : s.rxq = [] <;>
    simp [hq]

/-- Settles O19: each meaning begins with acceptance, which a busy block refuses. -/
theorem busyBlockAcceptsNothing : Obligations.BusyBlockAcceptsNothing :=
  fun _ _ _ hp => ⟨execDecode_eq_next.mpr (.inl ⟨hp, rfl⟩), execEncode_eq_next.mpr (.inl ⟨hp, rfl⟩),
    execSetTimeout_eq_next.mpr (.inl ⟨hp, rfl⟩), execCmdReserved_eq_next.mpr rfl⟩

/-- Settles O21: FRAME delivers its bytes, whose second is the length. -/
theorem frameJoinsReceiveQueue : Obligations.FrameJoinsReceiveQueue := by
  intro s items c hlen
  have hl : (BitVec.ofNat 8 (2 * items.length)).toNat = 2 * items.length := by simp; omega
  refine ⟨s.deliver (frameBytes items c), rfl, ⟨_, hl, ?_⟩, ?_⟩
  · rw [State.rxq_deliver, frameBytes, payloadBytes_eq_flatMap]
    rfl
  · simp

/-- Settles O23, phase by phase: the byte waits, or is taken and the phase moves on. -/
theorem transmitPhases : Obligations.TransmitPhases := by
  intro ready s hphase
  rcases hphase with hp | hp | ⟨hp, hk⟩ | hp | hp
  · have hstep : phaseStep ready s = stepSendStart ready s := by simp only [phaseStep, hp]
    rw [hstep]
    cases ready
    · refine ⟨_, _, rfl, rfl, ?_, ?_, ?_, ?_, ?_, ?_, ?_, sameButSent_offerTx s _⟩ <;> simp [hp, startByte]
    · refine ⟨_, _, rfl, rfl, ?_, ?_, ?_, ?_, ?_, ?_, ?_, sameButSent_sendTx s _ s.cnt .eLen s.resp⟩ <;>
        simp [hp, startByte]
  · have hstep : phaseStep ready s = stepSendLength ready s := by simp only [phaseStep, hp]
    rw [hstep]
    cases ready
    · refine ⟨_, _, rfl, rfl, ?_, ?_, ?_, ?_, ?_, ?_, ?_, sameButSent_offerTx s _⟩ <;> simp [hp]
    · by_cases hzero : s.len = 0#8 <;>
        refine ⟨_, _, rfl, rfl, ?_, ?_, ?_, ?_, ?_, ?_, ?_, sameButSent_sendTx s _ 0 _ s.resp⟩ <;> simp [hp, hzero]
  · obtain ⟨b, hb⟩ := s.buf_of_lt hk
    have hstep : phaseStep ready s = s.pushTx b ready
        fun v => if v.index + 1 = v.len.toNat then v.enter .eCks else v.countUp := by
      simp only [phaseStep, hp, stepSendPayload, hb]
    rw [hstep]
    cases ready
    · refine ⟨_, _, rfl, rfl, ?_, ?_, ?_, ?_, ?_, ?_, ?_, sameButSent_offerTx s _⟩ <;> simp [hp, hb]
    · by_cases hlast : s.index + 1 = s.len.toNat
      · refine ⟨(s.sendTx b).enter .eCks, b, congrArg Host.Outcome.next (if_pos hlast), rfl, ?_, ?_, ?_, ?_, ?_, ?_, ?_,
          sameButSent_sendTx s b s.cnt .eCks s.resp⟩ <;> simp [hp, hb, hlast]
      · have hindex : (s.sendTx b).countUp.index = s.index + 1 := s.index_countUp (by omega)
        refine ⟨(s.sendTx b).countUp, b, congrArg Host.Outcome.next (if_neg hlast), rfl, ?_, ?_, ?_, ?_, ?_, ?_, ?_,
          sameButSent_sendTx s b (s.cnt + 1) s.phase s.resp⟩ <;> simp [hp, hb, hlast, hindex]
  · have hstep : phaseStep ready s = stepSendChecksum ready s := by simp only [phaseStep, hp]
    rw [hstep]
    cases ready
    · refine ⟨_, _, rfl, rfl, ?_, ?_, ?_, ?_, ?_, ?_, ?_, sameButSent_offerTx s _⟩ <;> simp [hp]
    · refine ⟨_, _, rfl, rfl, ?_, ?_, ?_, ?_, ?_, ?_, ?_, sameButSent_sendTx s _ s.cnt .eEnd s.resp⟩ <;> simp [hp]
  · have hstep : phaseStep ready s = stepSendEnd ready s := by simp only [phaseStep, hp]
    rw [hstep]
    cases ready
    · refine ⟨_, _, rfl, rfl, ?_, ?_, ?_, ?_, ?_, ?_, ?_, sameButSent_offerTx s _⟩ <;> simp [hp, endByte]
    · refine ⟨_, _, rfl, rfl, ?_, ?_, ?_, ?_, ?_, ?_, ?_, sameButSent_sendTx s _ s.cnt .idle (some .ok)⟩ <;>
        simp [hp, endByte]

/-- Settles O24, by the branches of `D_SYNC`: empty, sentinel, time up, or scanning on. -/
theorem syncStep : Obligations.SyncStep := by
  intro ready s hp
  rw [phaseStep, hp]
  cases hq : s.rxq with
  | nil =>
    refine ⟨_, stepSync_eq_next.mpr (.inl ⟨hq, rfl⟩), ?_⟩
    simp [hq]
  | cons b q =>
    refine ⟨_, stepSync_eq_next.mpr (.inr ⟨b, q, hq, rfl⟩), ?_⟩
    rw [← s.timedOut_iff]
    by_cases hb : b = startByte
    · simp [hb, hq, startByte]
    · have hne : b ≠ 126#8 := hb
      by_cases htime : s.timedOut = true <;> simp [hb, hne, hq, hp, htime]

/-- Settles O25, by the branches of `D_LEN`: a byte, legal or not, or none, with the time up or not. -/
theorem lengthStep : Obligations.LengthStep := by
  intro ready s hp
  rw [phaseStep, hp]
  cases hq : s.rxq with
  | nil =>
    refine ⟨_, stepLength_eq_next.mpr (.inr ⟨hq, rfl⟩), ?_⟩
    rw [← s.timedOut_iff]
    by_cases htime : s.timedOut = true <;> simp [hq, hp, htime]
  | cons b q =>
    refine ⟨_, stepLength_eq_next.mpr (.inl ⟨b, q, hq, rfl⟩), ?_⟩
    have hlegal : legalLength b = true ↔ ¬ (b.toNat % 2 = 1 ∨ 80 < b.toNat) := by rw [legalLength_iff]; omega
    by_cases hbad : b.toNat % 2 = 1 ∨ 80 < b.toNat
    · have hb : legalLength b = false := by rw [← Bool.not_eq_true, hlegal]; exact not_not.mpr hbad
      simp [hb, hq]
      omega
    · simp [hlegal.mpr hbad, hq]
      omega

/-- Settles O26, by the branches of `D_BODY`: the body is there, or missing, with the time up or not. -/
theorem bodyStep : Obligations.BodyStep := by
  intro ready s hp hlegal
  have hbody := s.bodyArrived_iff hlegal
  rw [phaseStep, hp]
  refine ⟨_, stepBody_eq_next.mpr rfl, ?_⟩
  rw [← s.timedOut_iff]
  by_cases hlong : s.len.toNat + 2 ≤ s.rxq.length
  · simp [hbody.mpr hlong, hlong, Nat.not_lt.mpr hlong]
  · have hb : s.bodyArrived = false := by rw [← Bool.not_eq_true, hbody]; exact hlong
    by_cases htime : s.timedOut = true <;> simp [hb, hlong, hp, htime]

/-- Settles O28, by the two branches of `D_CKS`. -/
theorem compareChecksumStep : Obligations.CompareChecksumStep := by
  intro ready s b q hp hq
  rw [phaseStep, hp]
  refine ⟨_, stepCompareChecksum_eq_next.mpr ⟨b, q, hq, rfl⟩, ?_⟩
  by_cases hb : b = s.lastCks <;> simp [hb, hq]

/-- Settles O29, by the two branches of `D_END`. -/
theorem compareEndStep : Obligations.CompareEndStep := by
  intro ready s b q hp hq
  rw [phaseStep, hp]
  refine ⟨_, stepCompareEnd_eq_next.mpr ⟨b, q, hq, rfl⟩, ?_⟩
  by_cases hb : b = endByte
  · simp [hb, hq, endByte]
  · have hne : b ≠ 239#8 := hb
    simp [hb, hne, hq]

/-- Settles O30, by the branches of `D_APPLY`: a pair whose id is in range, one whose id is not, or no pair left. -/
theorem applyStep : Obligations.ApplyStep := by
  intro ready s hp hc
  rw [phaseStep, hp]
  by_cases hi : s.index < s.itemCount
  · obtain ⟨id, hid⟩ := s.buf_of_lt (i := 2 * s.index) (by omega)
    obtain ⟨v, hv⟩ := s.buf_of_lt (i := 2 * s.index + 1) (by omega)
    have hindex : ∀ w : State, w.cnt = s.cnt → w.countUp.index = s.index + 1 := fun w hw => by
      rw [← s.index_countUp (by omega)]
      exact index_congr (by simp [hw])
    refine ⟨_, stepApply_eq_next.mpr (.inl ⟨id, v, hi, hid, hv, rfl⟩), fun _ => ⟨id, v, hid, hv, ?_⟩,
      fun hn => absurd hi hn, ?_⟩
    · by_cases hr : id.toNat < 40
      · rw [if_pos ((idInRange_iff id).mpr hr)]
        refine ⟨fun _ => ⟨?_, fun a ha => ?_⟩, fun hn => absurd hr hn, hindex _ (by simp), by simp [hp], by simp⟩
        · simp [State.readIn, hr]
        · simp [State.readIn, Ne.symm ha]
      · rw [if_neg (mt (idInRange_iff id).mp hr)]
        exact ⟨fun h => absurd h hr, fun _ => by simp, hindex s rfl, by simp [hp], by simp⟩
    · split <;> simp
  · refine ⟨_, stepApply_eq_next.mpr (.inr ⟨Nat.not_lt.mp hi, rfl⟩), fun h => absurd h hi, ?_, ?_⟩ <;> simp

/-- Settles O31: the pop, the slot or the buffer byte that is missing is the stop's name. -/
theorem internalStopsAreNamed : Obligations.InternalStopsAreNamed := by
  intro ready s
  refine ⟨?_, ?_, ?_, ?_, ?_⟩
  · rintro (⟨hp, hi⟩ | hp | hp) hq
    · rw [phaseStep, hp]
      simp only [stepRead, if_pos hi]
      exact s.popRx_nil hq _
    · rw [phaseStep, hp]
      exact s.popRx_nil hq _
    · rw [phaseStep, hp]
      exact s.popRx_nil hq _
  · intro hp hi hk
    have hv : s.readOut s.index = none := Vector.getElem?_eq_none hk
    rw [phaseStep, hp]
    simp only [stepBuild, if_pos hi, hv]
  · intro hp hk
    have hb : s.pbuf[s.index]? = none := Vector.getElem?_eq_none hk
    rw [phaseStep, hp]
    simp only [stepSendPayload, hb]
  · intro hp hi hk hq
    obtain ⟨b, q, hbq⟩ := List.exists_cons_of_ne_nil hq
    have hnot : ¬ s.dropHead.index < pbufDepth := Nat.not_lt.mpr hk
    rw [phaseStep, hp]
    simp only [stepRead, if_pos hi, s.popRx_cons hbq, if_neg hnot]
  · intro hp hi hk
    have hout : 80 ≤ 2 * s.index := by omega
    have hb : s.pbuf[2 * s.index]? = none := Vector.getElem?_eq_none hout
    rw [phaseStep, hp]
    simp only [stepApply, if_pos hi, hb]

end Sys2Proof.Proofs

end
